-- ==== Sys2Proof/Word.lean ====
section
/-! DEFINITION. The word types: a byte (00_scope.md R9) and a 32-bit word (R6, REG_WIDTH). -/

namespace Sys2Proof

/-- A byte is an 8-bit unsigned value (R9). -/
abbrev Byte := BitVec 8

/-- A command word, a host-sequence word or a host-visible register: 32 bits (R6 REG_WIDTH, R87). -/
abbrev Word := BitVec 32

end Sys2Proof
end

