-- ==== Sys2Proof/Machine/Types.lean ====
section
/-! DEFINITION. The sets of names the state is written in: phases, causes, events, fault codes, turns. -/

namespace Sys2Proof.Machine

/-- PHASE: where XACT stands (10_state.md R28). -/
inductive Phase where
  /-- no command is running -/
  | idle
  /-- polling for the bus to become idle, before a start condition (R111) -/
  | wBusy
  /-- START and the address byte have been driven; polling for the address acknowledgment (R112) -/
  | wAddr
  /-- payload byte TXBUF[IDX] has been driven; polling for byte-transfer-complete (R115) -/
  | wBtf
  /-- the acknowledge setting for byte IDX has been driven; polling for receive-buffer-not-empty (R122) -/
  | wRxne
  deriving DecidableEq, Repr, Inhabited

/-- OP: the running transfer's direction (10_state.md R20). -/
inductive XferOp where
  | xw
  | xr
  deriving DecidableEq, Repr, Inhabited

/-- The bus status flags, which ENV owns and the block samples (10_state.md R36). -/
inductive Flag where
  | busy
  | addrAck
  | btf
  | rxne
  deriving DecidableEq, Repr, Inhabited

/-- CAUSE: why the last failed command failed (10_state.md R30). Ghost state. -/
inductive Cause where
  | none
  | busBusyTimeout
  | addrTimeout
  | btfTimeout
  | rxneTimeout
  | sensorBusy
  | noFrame
  deriving DecidableEq, Repr, Inhabited

/-- The code numbers of R30. -/
def Cause.code : Cause → Nat
  | .none => 0
  | .busBusyTimeout => 1
  | .addrTimeout => 2
  | .btfTimeout => 3
  | .rxneTimeout => 4
  | .sensorBusy => 5
  | .noFrame => 6

/-- The events of the history H (10_state.md R31). -/
inductive Event where
  /-- INIT's bus bring-up took place -/
  | busInit
  /-- a start condition was driven -/
  | start
  /-- address byte a was transmitted -/
  | addr (a : Byte)
  /-- payload byte b was transmitted -/
  | tx (b : Byte)
  /-- continued-acknowledgment set on for the next received byte -/
  | ack
  /-- continued-acknowledgment set off for the next received byte -/
  | nack
  /-- byte b was captured from the receive buffer -/
  | rx (b : Byte)
  /-- a stop condition was driven -/
  | stop
  /-- flag f was sampled and read v -/
  | poll (f : Flag) (v : Bool)
  /-- the host waited ms milliseconds -/
  | delay (ms : BitVec 16)
  deriving DecidableEq, Repr, Inhabited

/-- The wire-level events: START, ADDR, TX, ACK, NACK, RX and STOP (R31). -/
def Event.isWire : Event → Bool
  | .busInit => false
  | .start => true
  | .addr _ => true
  | .tx _ => true
  | .ack => true
  | .nack => true
  | .rx _ => true
  | .stop => true
  | .poll _ _ => false
  | .delay _ => false

/-- The events a claim about a run may read: wire-level and DELAY events (10_state.md R33). -/
def Event.isObserved : Event → Bool
  | .busInit => false
  | .start => true
  | .addr _ => true
  | .tx _ => true
  | .ack => true
  | .nack => true
  | .rx _ => true
  | .stop => true
  | .poll _ _ => false
  | .delay _ => true

/-- What the block asks ENV for: a flag (Sample), a received byte (RxData), or the free draw of an abort (Draw)
(00_scope.md R10, 10_state.md R32). -/
inductive EnvQuery where
  | sample (f : Flag)
  | rxData
  | draw
  deriving DecidableEq, Repr, Inhabited

/-- HMODE (10_state.md R38). -/
inductive HMode where
  | run
  | wait
  | halt
  deriving DecidableEq, Repr, Inhabited

/-- The values of HRET other than none (10_state.md R38). -/
inductive RetVal where
  /-- FALSE -/
  | boolFalse
  /-- TRUE -/
  | boolTrue
  /-- VOID -/
  | void
  deriving DecidableEq, Repr, Inhabited

/-- The fault codes (60_exceptions.md R206). -/
inductive FaultCode where
  /-- a CMD write of a word that matches no legal form -/
  | illegalCmd
  /-- XW or XR issued while INITD = 0 -/
  | notInit
  /-- INIT issued while INITD = 1 -/
  | reinit
  /-- a CMD write while PHASE != IDLE -/
  | overlap
  /-- a write to STATUS, TEMP_X10 or HUM_X10; a read of CMD; an access to an unmapped register -/
  | badAccess
  /-- a host-sequence word that is neither a block command word nor a legal DELAY, JF or RET -/
  | hIllegal
  /-- JF with OKV = 0 -/
  | hNoResult
  /-- JF with t >= length(PROG) -/
  | hBadTarget
  /-- a fetch with HPC >= length(PROG) -/
  | hPcEnd
  deriving DecidableEq, Repr, Inhabited

/-- The code numbers of R206. -/
def FaultCode.code : FaultCode → Nat
  | .illegalCmd => 0x01
  | .notInit => 0x02
  | .reinit => 0x03
  | .overlap => 0x04
  | .badAccess => 0x05
  | .hIllegal => 0x11
  | .hNoResult => 0x12
  | .hBadTarget => 0x13
  | .hPcEnd => 0x14

/-- One turn of the interleaving of HOST and XACT steps (20_memory.md R62): who moves, and for the HOST whether
it takes its sequence's next step or accesses a register (10_state.md R22). The model's own (log 7). -/
inductive Turn where
  /-- XACT takes its step -/
  | xact
  /-- the HOST takes the next step of its sequence -/
  | seq
  /-- the HOST reads register r -/
  | read (r : BitVec 8)
  /-- the HOST writes w to register r -/
  | write (r : BitVec 8) (w : Word)
  deriving DecidableEq, Repr, Inhabited

/-- The setting of DECODE_NUMERICS (00_scope.md R6, 41_decoder.md R144). -/
inductive DecodeNumerics where
  | exact
  | binary32
  deriving DecidableEq, Repr, Inhabited

end Sys2Proof.Machine
end

