-- ==== Sys2Proof/Config.lean ====
section
/-! DEFINITION. The parameters of 00_scope.md R6, and the free values (constants with no body: nothing in Lean
can evaluate one, so a claim that holds holds whatever they are). -/

namespace Sys2Proof.Config

open Sys2Proof.Machine

/-- The default of POLL_LIMIT, the samples of one wait (R6, 92_eei_decisions.md D5; UNVERIFIED, log 11). The state holds
the machine's own (log 20). -/
def pollLimit : BitVec 14 := 10000#14

/-- TARGET_ADDR, the fixed 7-bit target address (R6, R52). -/
def targetAddr : BitVec 7 := 0x38#7

/-- The default of DECODE_NUMERICS (R6, R144, 90_conflicts.md C2; log 12). The state holds the machine's own (log 20). -/
def decodeNumerics : DecodeNumerics := .exact

/-- RXBUF_LEN and FRAME_LEN, 6 bytes (R6). -/
def frameLen : Nat := 6

/-- The settling delays of R6 and R176, in milliseconds. -/
def resetDelayMs : BitVec 16 := 20#16
def initDelayMs : BitVec 16 := 10#16
def measureDelayMs : BitVec 16 := 80#16

/-- The sensor's command bytes (R6, R81). -/
def cmdReset : Byte := 0xBA#8
def cmdInit : Byte := 0xE1#8
def initP0 : Byte := 0x08#8
def initP1 : Byte := 0x00#8
def cmdMeasure : Byte := 0xAC#8
def measP0 : Byte := 0x33#8
def measP1 : Byte := 0x00#8

/-- BUS_CLOCK_HZ less one: an OPEN positive integer that no rule reads (R6, R7; safe, log 13). -/
opaque busClockHzPred : Nat

/-- BUS_CLOCK_HZ, OPEN (R6). -/
def busClockHz : Nat := busClockHzPred + 1

/-- PIN_MAP, OPEN and opaque; no rule reads it (R6, R7; safe, log 13). -/
opaque pinMap : List Nat

/-- FREE VALUE. ENV's choice (10_state.md R32): what the oracle answers to a query after a history, the
n-th choice of the run being n. Any byte; a flag sample and a draw read bit 0 of it (safe, log 4). -/
opaque envChoice : List Event → EnvQuery → Nat → Byte

/-- FREE VALUES. What a read of a field that holds no value would give (10_state.md R39, R232). No reachable
step reads one (safe, log 5). -/
opaque unwrittenTx : Nat → Byte
opaque unwrittenRx : Nat → Byte
opaque unwrittenOp : XferOp
opaque unwrittenN : BitVec 3
opaque unwrittenIdx : BitVec 3

end Sys2Proof.Config
end

