-- ==== Sys2Proof/Syntax.lean ====
section
/-! DEFINITION. The instructions: one constructor per row of spec/opcode_table.json (30_encoding.md R71 to R80, R90). -/

namespace Sys2Proof

/-- The rows of the opcode table. Operand fields are the fields of the word, zero-extended where they are used (R79). -/
inductive Instr where
  /-- INIT, bus bring-up (R72, R103). -/
  | init
  /-- CLR, zero the device handle (R73, R150). -/
  | clr
  /-- XW with N = 1 (R74, R102). -/
  | xw1 (b0 : Byte)
  /-- XW with N = 2. -/
  | xw2 (b0 b1 : Byte)
  /-- XW with N = 3. -/
  | xw3 (b0 b1 b2 : Byte)
  /-- XR with N = 1 (R75, R120). -/
  | xr1
  | xr2
  | xr3
  | xr4
  | xr5
  | xr6
  /-- DEC, decode the received frame into the handle (R76, R141). -/
  | dec
  /-- DELAY ms, a host word (R78, R163). -/
  | delay (ms : BitVec 16)
  /-- JF t, a host word: jump if the last command failed (R78, R164). -/
  | jf (t : BitVec 16)
  /-- RET FALSE, a host word (R78, R165). -/
  | retFalse
  /-- RET TRUE. -/
  | retTrue
  /-- RET VOID. -/
  | retVoid
  /-- SENSOR_RESET, another name of XW 0xBA (R90). -/
  | sensorReset
  /-- SENSOR_INIT, another name of XW 0xE1, 0x08, 0x00 (R90). -/
  | sensorInit
  /-- SENSOR_MEASURE, another name of XW 0xAC, 0x33, 0x00 (R90). -/
  | sensorMeasure
  /-- READ_FRAME, another name of XR 6 (R90). -/
  | readFrame
  /-- The wire address byte with the write bit, 0x70 (R80). XACT drives it; no host word holds it. -/
  | addrW
  /-- The wire address byte with the read bit, 0x71 (R80). -/
  | addrR
  deriving DecidableEq, Repr, Inhabited

/-- What a row of the table is a word of (R71, R78, R80). -/
inductive InstrClass where
  /-- a command word: the HOST writes it to CMD -/
  | command
  /-- a host-sequence word: the HOST executes it itself -/
  | hostWord
  /-- a byte on the wire: XACT drives it -/
  | wireByte
  deriving DecidableEq, Repr

/-- The class of each row (R71, R78, R80, R90). -/
def Instr.cls : Instr → InstrClass
  | .init => .command
  | .clr => .command
  | .xw1 _ => .command
  | .xw2 _ _ => .command
  | .xw3 _ _ _ => .command
  | .xr1 => .command
  | .xr2 => .command
  | .xr3 => .command
  | .xr4 => .command
  | .xr5 => .command
  | .xr6 => .command
  | .dec => .command
  | .delay _ => .hostWord
  | .jf _ => .hostWord
  | .retFalse => .hostWord
  | .retTrue => .hostWord
  | .retVoid => .hostWord
  | .sensorReset => .command
  | .sensorInit => .command
  | .sensorMeasure => .command
  | .readFrame => .command
  | .addrW => .wireByte
  | .addrR => .wireByte

/-- The instruction a pseudo-instruction expands to; every other instruction is its own expansion (R90). -/
def Instr.core : Instr → Instr
  | .init => .init
  | .clr => .clr
  | .xw1 b0 => .xw1 b0
  | .xw2 b0 b1 => .xw2 b0 b1
  | .xw3 b0 b1 b2 => .xw3 b0 b1 b2
  | .xr1 => .xr1
  | .xr2 => .xr2
  | .xr3 => .xr3
  | .xr4 => .xr4
  | .xr5 => .xr5
  | .xr6 => .xr6
  | .dec => .dec
  | .delay ms => .delay ms
  | .jf t => .jf t
  | .retFalse => .retFalse
  | .retTrue => .retTrue
  | .retVoid => .retVoid
  | .sensorReset => .xw1 0xBA#8
  | .sensorInit => .xw3 0xE1#8 0x08#8 0x00#8
  | .sensorMeasure => .xw3 0xAC#8 0x33#8 0x00#8
  | .readFrame => .xr6
  | .addrW => .addrW
  | .addrR => .addrR

end Sys2Proof
end

