-- ==== Sys2Proof/Decode.lean ====
section
/-! DEFINITION. The decoder, total on every 32-bit word and every wire byte, rejecting by name (30_encoding.md
R70 to R80), and after it the encoder, written from the same tables. -/

namespace Sys2Proof

/-- Why a word or byte is no instruction (R77, R78, R80). -/
inductive Reject where
  /-- OP is 0x0, 0x6, 0x7 or 0xB to 0xF -/
  | reservedOp
  /-- a field that must be 0 is not -/
  | nonzeroField
  /-- N is no legal byte count of XW or XR -/
  | badCount
  /-- RET with v = 3 -/
  | badRetValue
  /-- a wire byte whose address field is not TARGET_ADDR -/
  | notTargetAddr
  deriving DecidableEq, Repr

/-- The fields of R70 and R78. -/
def opField (w : Word) : BitVec 4 := w.extractLsb' 28 4
def nField (w : Word) : BitVec 4 := w.extractLsb' 24 4
def b0Field (w : Word) : Byte := w.extractLsb' 16 8
def b1Field (w : Word) : Byte := w.extractLsb' 8 8
def b2Field (w : Word) : Byte := w.extractLsb' 0 8
/-- Bits 27:0, all that follows OP. -/
def belowOp (w : Word) : BitVec 28 := w.extractLsb' 0 28
/-- Bits 23:0, all that follows N. -/
def belowN (w : Word) : BitVec 24 := w.extractLsb' 0 24
/-- Bits 27:16 of a host word, which must be 0. -/
def hostZero (w : Word) : BitVec 12 := w.extractLsb' 16 12
/-- Bits 15:0 of a host word: ms or t. -/
def hostArg (w : Word) : BitVec 16 := w.extractLsb' 0 16
/-- Bits 15:2 of a RET word, which must be 0. -/
def retZero (w : Word) : BitVec 14 := w.extractLsb' 2 14
/-- Bits 1:0 of a RET word: v. -/
def retV (w : Word) : BitVec 2 := w.extractLsb' 0 2

/-- i if the condition "every reserved field is 0" holds. -/
def guardZero (c : Bool) (i : Instr) : Except Reject Instr :=
  if c then .ok i else .error .nonzeroField

/-- XW: the three legal forms of R74. -/
def decodeXw (w : Word) : Except Reject Instr :=
  match (nField w).toNat with
  | 1 => guardZero (b1Field w == 0#8 && b2Field w == 0#8) (.xw1 (b0Field w))
  | 2 => guardZero (b2Field w == 0#8) (.xw2 (b0Field w) (b1Field w))
  | 3 => .ok (.xw3 (b0Field w) (b1Field w) (b2Field w))
  | _ => .error .badCount

/-- XR: the six legal forms of R75. -/
def decodeXr (w : Word) : Except Reject Instr :=
  match (nField w).toNat with
  | 1 => guardZero (belowN w == 0#24) .xr1
  | 2 => guardZero (belowN w == 0#24) .xr2
  | 3 => guardZero (belowN w == 0#24) .xr3
  | 4 => guardZero (belowN w == 0#24) .xr4
  | 5 => guardZero (belowN w == 0#24) .xr5
  | 6 => guardZero (belowN w == 0#24) .xr6
  | _ => .error .badCount

/-- RET: v = 0, 1 or 2; bits 27:2 are 0 (R78). -/
def decodeRet (w : Word) : Except Reject Instr :=
  match (retV w).toNat with
  | 0 => guardZero (hostZero w == 0#12 && retZero w == 0#14) .retFalse
  | 1 => guardZero (hostZero w == 0#12 && retZero w == 0#14) .retTrue
  | 2 => guardZero (hostZero w == 0#12 && retZero w == 0#14) .retVoid
  | _ => .error .badRetValue

/-- The instruction a 32-bit word is, by the opcode map of R71. A pseudo-instruction's word is its core
instruction's (R90; log 1). -/
def decodeWord (w : Word) : Except Reject Instr :=
  match (opField w).toNat with
  | 0x1 => guardZero (belowOp w == 0#28) .init
  | 0x2 => guardZero (belowOp w == 0#28) .clr
  | 0x3 => decodeXw w
  | 0x4 => decodeXr w
  | 0x5 => guardZero (belowOp w == 0#28) .dec
  | 0x8 => guardZero (hostZero w == 0#12) (.delay (hostArg w))
  | 0x9 => guardZero (hostZero w == 0#12) (.jf (hostArg w))
  | 0xA => decodeRet w
  | _ => .error .reservedOp

/-- The address byte of a transaction: (TARGET_ADDR << 1) | RW, RW = 1 for a read (R80; log 18). -/
def addrByte (rw : Bool) : Byte := Config.targetAddr ++ BitVec.ofBool rw

/-- The wire address byte b is, by the layout of R80. -/
def decodeAddr (b : Byte) : Except Reject Instr :=
  if b.extractLsb' 1 7 = Config.targetAddr then
    .ok (if b.getLsbD 0 then .addrR else .addrW)
  else .error .notTargetAddr

/-- How many bits an instruction's encoding has: 32 for a word (R87), 8 for a wire byte (R80). -/
def Instr.width : Instr → Nat
  | .init => 32
  | .clr => 32
  | .xw1 _ => 32
  | .xw2 _ _ => 32
  | .xw3 _ _ _ => 32
  | .xr1 => 32
  | .xr2 => 32
  | .xr3 => 32
  | .xr4 => 32
  | .xr5 => 32
  | .xr6 => 32
  | .dec => 32
  | .delay _ => 32
  | .jf _ => 32
  | .retFalse => 32
  | .retTrue => 32
  | .retVoid => 32
  | .sensorReset => 32
  | .sensorInit => 32
  | .sensorMeasure => 32
  | .readFrame => 32
  | .addrW => 8
  | .addrR => 8

/-- The decoder by width: 8 bits are a wire byte, 32 bits a word. -/
def decodeBits (width : Nat) (w : Word) : Except Reject Instr :=
  if width ≤ 8 then decodeAddr (w.setWidth 8) else decodeWord w

/-- The word of an instruction (R72 to R78, R90); a wire byte stands in the low 8 bits (R80). -/
def encode : Instr → Word
  | .init => 0x10000000#32
  | .clr => 0x20000000#32
  | .xw1 b0 => 0x31#8 ++ b0 ++ 0#8 ++ 0#8
  | .xw2 b0 b1 => 0x32#8 ++ b0 ++ b1 ++ 0#8
  | .xw3 b0 b1 b2 => 0x33#8 ++ b0 ++ b1 ++ b2
  | .xr1 => 0x41000000#32
  | .xr2 => 0x42000000#32
  | .xr3 => 0x43000000#32
  | .xr4 => 0x44000000#32
  | .xr5 => 0x45000000#32
  | .xr6 => 0x46000000#32
  | .dec => 0x50000000#32
  | .delay ms => 0x8000#16 ++ ms
  | .jf t => 0x9000#16 ++ t
  | .retFalse => 0xA0000000#32
  | .retTrue => 0xA0000001#32
  | .retVoid => 0xA0000002#32
  | .sensorReset => 0x31BA0000#32
  | .sensorInit => 0x33E10800#32
  | .sensorMeasure => 0x33AC3300#32
  | .readFrame => 0x46000000#32
  | .addrW => 0x70#32
  | .addrR => 0x71#32

/-- The instruction the decoder reads from nbits bits w, numbered as the opcode table numbers them: at most 8
bits are a wire byte, at most 32 a word whose bits above nbits are 0. -/
def decodeTableWord (nbits w : Nat) : Option Instr :=
  if nbits ≤ 32 then (decodeBits nbits (BitVec.ofNat 32 (w % 2 ^ nbits))).toOption else none

end Sys2Proof
end

