-- ==== Sys2Proof/Machine/State.lean ====
section
/-! DEFINITION. The machine's state (10_state.md R20, R38, R232) as plain data, its reset value (R230), and the
reasons a step can stop. -/

namespace Sys2Proof.Machine

/-- Why the machine stops with a fault. -/
inductive Fault where
  /-- FAULT is set to c, so no agent has a step (60_exceptions.md R205). Raised by every step and every meaning
  in a state whose FAULT is set; a fault is RAISED by a next state that sets FAULT (log 3). Safe. -/
  | stopped (c : FaultCode)
  deriving DecidableEq, Repr

/-- Why a step has no meaning. -/
inductive Refusal where
  /-- An instruction that has no meaning yet. Raised by exec's refused arms alone; this model has none. Safe. -/
  | notModelled (mnemonic : String)
  /-- No agent has an enabled step: the HOST is HALTed, PHASE is IDLE and FAULT is none, the final state of
  45_host_sequences.md R167 with no register access listed (log 19). Raised by the step of such a state and by
  XACT's step in PHASE IDLE, which has none (10_state.md R28). Safe (log 14). -/
  | noStep
  deriving DecidableEq, Repr

/-- The state. Fields down to fault are R20's, hpc, hmode, hret and prog R38's, pollLimit and
numerics the parameters of R6 that steps read, hpcPast and the last four the model's own. -/
structure State where
  phase : Phase
  /-- OP; none while it holds no value (R232). -/
  op : Option XferOp
  /-- N; none while it holds no value (R232). -/
  n : Option (BitVec 3)
  /-- IDX; none while it holds no value (R232). -/
  idx : Option (BitVec 3)
  cnt : BitVec 14
  /-- TXBUF; an entry is none while the byte is unwritten (R39). -/
  txbuf : Vector (Option Byte) 3
  /-- RXBUF; an entry is none while the byte is unwritten (R39). -/
  rxbuf : Vector (Option Byte) 6
  rxlen : BitVec 3
  rxvalid : Bool
  initd : Bool
  okv : Bool
  ok : Bool
  tempX10 : BitVec 16
  humX10 : BitVec 16
  cause : Cause
  /-- H, oldest event first (R31). -/
  h : List Event
  fault : Option FaultCode
  /-- HPC, the 16-bit index of the next word of PROG (R38). -/
  hpc : BitVec 16
  /-- HPC has gone past index 0xFFFF, where a sequence of 65536 words ends: it names no word (log 6). -/
  hpcPast : Bool
  hmode : HMode
  hret : Option RetVal
  /-- PROG, at most 65536 words (R38, R160): State.Inv. -/
  prog : List Word
  /-- POLL_LIMIT, 1 to 2^CNT_WIDTH - 1 (R6): State.Inv. A parameter: no step writes it (log 20). -/
  pollLimit : BitVec 14
  /-- DECODE_NUMERICS (R6). A parameter: no step writes it (log 20). -/
  numerics : DecodeNumerics
  /-- Who moves next, oldest first; none listed: XACT if it has a step, else the HOST's sequence (log 7). -/
  turns : List Turn
  /-- What the HOST's last register read returned (R168; log 10). -/
  readData : Option Word
  /-- The choices ENV is known to make next, oldest first; none listed: a free value (R32; log 4). -/
  envInput : List Byte
  /-- How many choices ENV has made; it makes each one fresh (R32; log 4). -/
  envCount : Nat
  deriving DecidableEq, Repr

/-- The machine right after reset (70_reset_and_hazards.md R230 to R233). The HOST stands at the start of a
sequence, which is given from outside: PROG is empty (log 9). -/
def State.reset : State where
  phase := .idle
  op := none
  n := none
  idx := none
  cnt := 0#14
  txbuf := #v[none, none, none]
  rxbuf := #v[none, none, none, none, none, none]
  rxlen := 0#3
  rxvalid := false
  initd := false
  okv := false
  ok := false
  tempX10 := 0#16
  humX10 := 0#16
  cause := .none
  h := []
  fault := none
  hpc := 0#16
  hpcPast := false
  hmode := .run
  hret := none
  prog := []
  pollLimit := Config.pollLimit
  numerics := Config.decodeNumerics
  turns := []
  readData := none
  envInput := []
  envCount := 0

/-- The answer of a step or of a meaning. -/
abbrev Result := Host.Outcome State Fault Refusal

end Sys2Proof.Machine
end

