-- ==== Sys2Proof/WellFormed.lean ====
section
/-! DEFINITION. Well-formed instructions and host sequences: the conditions the operand types do not already
say. N, B0 to B2, ms and t have the widths of their fields by type (30_encoding.md R70, R78). -/

namespace Sys2Proof

/-- The bound on a sequence's length: indices are 16-bit (45_host_sequences.md R160). -/
def maxSequence : Nat := 65536

/-- May instruction i stand in a host sequence of len words? A JF names a word of the same sequence (R78:
"t < length of the sequence"), and a wire address byte is no word (R80). -/
def Instr.wellFormedIn (len : Nat) : Instr → Bool
  | .init => true
  | .clr => true
  | .xw1 _ => true
  | .xw2 _ _ => true
  | .xw3 _ _ _ => true
  | .xr1 => true
  | .xr2 => true
  | .xr3 => true
  | .xr4 => true
  | .xr5 => true
  | .xr6 => true
  | .dec => true
  | .delay _ => true
  | .jf t => decide (t.toNat < len)
  | .retFalse => true
  | .retTrue => true
  | .retVoid => true
  | .sensorReset => true
  | .sensorInit => true
  | .sensorMeasure => true
  | .readFrame => true
  | .addrW => false
  | .addrR => false

/-- A host sequence: at most 65536 words (R160), each well-formed in it. -/
def sequenceWellFormed (is : List Instr) : Bool :=
  decide (is.length ≤ maxSequence) && is.all (Instr.wellFormedIn is.length)

end Sys2Proof
end

