-- ==== Sys2Proof/Machine/Ops.lean ====
section
/-! DEFINITION. The primitives of 00_scope.md R10 and the operations the meanings share: events, ENV's answers,
raising a fault (60_exceptions.md R205), finish (10_state.md R27), the issue checks (40_transactor.md R101), the
wait (R110), abort (R130), and starting a host sequence (45_host_sequences.md R160). -/

namespace Sys2Proof.Machine

/-- emit E: append event e to H (R10). -/
def State.emit (e : Event) (s : State) : State := { s with h := s.h ++ [e] }

/-- ENV's next choice (R32): the next one listed, or a free value. -/
def State.nextChoice (q : EnvQuery) (s : State) : Byte :=
  match s.envInput with
  | c :: _ => c
  | [] => Config.envChoice s.h q s.envCount

/-- The state after ENV has made one choice. -/
def State.afterChoice (s : State) : State :=
  { s with envInput := s.envInput.tail, envCount := s.envCount + 1 }

/-- The bit a flag sample or a draw reads from ENV's next choice (R10, R32). -/
def State.nextBit (q : EnvQuery) (s : State) : Bool := (s.nextChoice q).getLsbD 0

/-- Sample(f): the flag's value (R10). -/
def State.sampled (f : Flag) (s : State) : Bool := s.nextBit (.sample f)

/-- Sample(f): the state after it, with POLL(f, answer) appended to H (R10). -/
def State.afterSample (f : Flag) (s : State) : State :=
  s.afterChoice.emit (.poll f (s.sampled f))

/-- raise Fault(c): FAULT takes c and nothing else is written in that step (R205, R209). A next state: the
machine stops in the state this gives (log 3). -/
def raise (c : FaultCode) (s : State) : Result := .next { s with fault := some c }

/-- What any step or meaning does only while FAULT is none; from then on no agent has a step (R205). -/
def whileRunning (k : State → Result) (s : State) : Result :=
  match s.fault with
  | some c => .fault (.stopped c)
  | none => k s

/-- finish(r) (R27). -/
def State.finish (r : Bool) (s : State) : State := { s with phase := .idle, okv := true, ok := r }

/-- A command that ends with result r and the cause c (R27, R30). -/
def State.complete (c : Cause) (r : Bool) (s : State) : State := { s with cause := c }.finish r

/-- abort(c): a free draw decides whether STOP follows (R130). -/
def State.abort (c : Cause) (s : State) : State :=
  (if s.nextBit .draw then s.afterChoice.emit .stop else s.afterChoice).complete c false

/-- The issue checks every command shares: enabled only while FAULT is none, and OVERLAP first (R101). -/
def issue (k : State → Result) (s : State) : Result :=
  whileRunning (fun s => if s.phase = .idle then k s else raise .overlap s) s

/-- The bookkeeping an accepted XW or XR writes at issue (R101). -/
def State.startTransfer (op : XferOp) (n : BitVec 3) (s : State) : State :=
  { s with
    okv := false, ok := false, op := some op, n := some n, idx := some 0#3, cnt := 0#14, phase := .wBusy }

/-- TXBUF after an XW's issue: B0, B1 and B2 copied to TXBUF[0..2] unchanged (R55, R79); from N on they are the
zeros a legal word holds there (R74; log 8). -/
def payload (b0 b1 b2 : Byte) : Vector (Option Byte) 3 := #v[some b0, some b1, some b2]

/-- Issue of XW with N = n and the word's bytes B0, B1, B2 (R101, R102). -/
def issueXw (n : BitVec 3) (b0 b1 b2 : Byte) (s : State) : Result :=
  issue (fun s =>
    if s.initd then .next { s.startTransfer .xw n with txbuf := payload b0 b1 b2 }
    else raise .notInit s) s

/-- Issue of XR with N = n (R101, R120). -/
def issueXr (n : BitVec 3) (s : State) : Result :=
  issue (fun s =>
    if s.initd then .next { s.startTransfer .xr n with rxvalid := false, rxlen := n }
    else raise .notInit s) s

/-- One sample of a wait for flag f to read v (R110): the continuation of success, of the timeout on the
POLL_LIMIT-th unmet sample, or the same phase. Success comes before timeout (R207). -/
def pollStep (f : Flag) (v : Bool) (met timeout : State → Result) (s : State) : Result :=
  let s' := { s.afterSample f with cnt := s.cnt + 1#14 }
  if s.sampled f = v then met s'
  else if s'.cnt = s.pollLimit then timeout s'
  else .next s'

/-- HPC <- HPC + 1 (R162, R163, R164). HPC does not wrap: past index 0xFFFF it names no word (R160, R161; log 6). -/
def State.nextWord (s : State) : State :=
  { s with hpc := s.hpc + 1#16, hpcPast := s.hpcPast || s.hpc == 0xFFFF#16 }

/-- HPC <- t (R164). -/
def State.jumpTo (t : BitVec 16) (s : State) : State := { s with hpc := t, hpcPast := false }

/-- PROG[HPC]; none where HPC >= length(PROG) (R161). -/
def State.wordAtHpc (s : State) : Option Word := if s.hpcPast then none else s.prog[s.hpc.toNat]?

/-- A new run of a host sequence, given from outside: HPC = 0, HMODE = RUN, HRET = none (R160, R38). A list of more
than 65536 words is no sequence (R160). No step does this (log 9). -/
def State.startSequence (prog : List Word) (s : State) : Option State :=
  if prog.length ≤ maxSequence then some { s.jumpTo 0#16 with prog := prog, hmode := .run, hret := none } else none

end Sys2Proof.Machine
end

