-- ==== Sys2Proof/Machine/Operands.lean ====
section
/-! DEFINITION. The operands the steps read: the bookkeeping of the running transfer and the buffers (10_state.md
R20, R39), the acknowledge setting (40_transactor.md R121), the frame and its raw fields (30_encoding.md R82 to R85). -/

namespace Sys2Proof.Machine

/-- OP; a free value where it holds none, which no reachable step reads (R232; log 5). -/
def State.curOp (s : State) : XferOp := s.op.getD Config.unwrittenOp

/-- N as a count (R79; log 5). -/
def State.curN (s : State) : Nat := (s.n.getD Config.unwrittenN).toNat

/-- IDX (log 5). -/
def State.curIdx (s : State) : BitVec 3 := s.idx.getD Config.unwrittenIdx

/-- TXBUF[i]; a free value where it is unwritten, which no reachable step reads (R39; log 5). -/
def State.txByte (s : State) (i : Nat) : Byte := (s.txbuf[i]?.join).getD (Config.unwrittenTx i)

/-- RXBUF[i]; a free value where it is unwritten, which no reachable step reads (R39; log 5). -/
def State.rxByte (s : State) (i : Nat) : Byte := (s.rxbuf[i]?.join).getD (Config.unwrittenRx i)

/-- ackctl(i): NACK when i = N - 1, ACK otherwise (R121). -/
def ackctl (i n : Nat) : Event := if i + 1 = n then .nack else .ack

/-- A response frame: exactly 6 bytes, f[0] first on the wire (R82). -/
abbrev Frame := Vector Byte 6

/-- RXBUF[0..5] as a frame (R141). -/
def State.rxFrame (s : State) : Frame :=
  #v[s.rxByte 0, s.rxByte 1, s.rxByte 2, s.rxByte 3, s.rxByte 4, s.rxByte 5]

/-- The busy flag f[0][7] (R83). -/
def Frame.busy (f : Frame) : Bool := f[0].getLsbD 7

/-- hum_raw, 20 bits: bytes 1 and 2 and the high nibble of byte 3 (R82, R85). -/
def Frame.humRaw (f : Frame) : BitVec 20 := f[1] ++ f[2] ++ f[3].extractLsb' 4 4

/-- temp_raw, 20 bits: the low nibble of byte 3 and bytes 4 and 5 (R82, R85). -/
def Frame.tempRaw (f : Frame) : BitVec 20 := f[3].extractLsb' 0 4 ++ f[4] ++ f[5]

end Sys2Proof.Machine
end

