-- ==== Sys2Proof/Machine/Numerics.lean ====
section
/-! DEFINITION. The decoder's arithmetic: the two fixed-point conversions under both settings of DECODE_NUMERICS
and the decoder as a pure function of a frame (41_decoder.md R140, R144 to R147, R152). -/

namespace Sys2Proof.Machine

/-- hum_x10 under EXACT: (r * 1000) >> 20 (R145). -/
def humX10Exact (r : BitVec 20) : Int := ((r.toNat * 1000) >>> 20 : Nat)

/-- An integer scaled by 2^20, truncated toward zero to an integer (R146). -/
def truncScaled (m : Int) : Int :=
  if 0 ≤ m then ((m.toNat >>> 20 : Nat) : Int) else -(((-m).toNat >>> 20 : Nat) : Int)

/-- temp_x10 under EXACT: r * 2000 / 2^20 - 500, truncated toward zero (R146). -/
def tempX10Exact (r : BitVec 20) : Int := truncScaled ((r.toNat : Int) * 2000 - 524288000)

/-- How often m must be halved to have at most 24 significant bits; fuel bounds the count. -/
def excessBits : Nat → Nat → Nat
  | 0, _ => 0
  | fuel + 1, m => if m < 2 ^ 24 then 0 else excessBits fuel (m / 2) + 1

/-- m divided by 2^k, rounded to nearest, ties to even. -/
def divRoundEven (m k : Nat) : Nat :=
  let q := m / 2 ^ k
  let rem2 := 2 * (m % 2 ^ k)
  if 2 ^ k < rem2 ∨ (rem2 = 2 ^ k ∧ q % 2 = 1) then q + 1 else q

/-- fl32 of a natural number below 2^32: binary32 has 24 significant bits and rounds to nearest even (R144).
Scaling by a power of two commutes with it, since no value here is subnormal or overflows. -/
def fl32 (m : Nat) : Nat := divRoundEven m (excessBits 8 m) * 2 ^ excessBits 8 m

/-- fl32 of a signed integer: rounding to nearest even is symmetric in the sign. -/
def fl32Int (m : Int) : Int := if 0 ≤ m then (fl32 m.toNat : Int) else -(fl32 (-m).toNat : Int)

/-- hum_x10 under BINARY32 (R144). The raw value and the division by 2^20 are exact in binary32. -/
def humX10B32 (r : BitVec 20) : Int := (fl32 (r.toNat * 1000) >>> 20 : Nat)

/-- temp_x10 under BINARY32 (R144): the subtraction of 500 is rounded too. -/
def tempX10B32 (r : BitVec 20) : Int := truncScaled (fl32Int ((fl32 (r.toNat * 2000) : Int) - 524288000))

/-- hum_x10 under a setting of DECODE_NUMERICS. -/
def humX10 (m : DecodeNumerics) (r : BitVec 20) : Int :=
  match m with
  | .exact => humX10Exact r
  | .binary32 => humX10B32 r

/-- temp_x10 under a setting of DECODE_NUMERICS. -/
def tempX10 (m : DecodeNumerics) (r : BitVec 20) : Int :=
  match m with
  | .exact => tempX10Exact r
  | .binary32 => tempX10B32 r

/-- decode's result: BUSY, or a pair (t, h) (R140). -/
inductive Reading where
  | busy
  | pair (t h : Int)
  deriving DecidableEq, Repr

/-- decode(f), a pure function of the frame and of DECODE_NUMERICS (R140). -/
def decodeFrame (m : DecodeNumerics) (f : Frame) : Reading :=
  if f.busy then .busy else .pair (tempX10 m f.tempRaw) (humX10 m f.humRaw)

/-- The 16-bit store of a result, two's complement (R147). -/
def store16 (v : Int) : BitVec 16 := BitVec.ofInt 16 v

/-- enc(h) = ceil(h * 2^20 / 1000) (R152). -/
def encHum (h : Nat) : Nat := (h * 2 ^ 20 + 999) / 1000

end Sys2Proof.Machine
end

