-- ==== Sys2Proof/Machine/Handle.lean ====
section
/-! DEFINITION. The decoder and handle commands DEC and CLR (41_decoder.md R141 to R143, R150). -/

namespace Sys2Proof.Machine

/-- DEC's write of the pair, both fields in the step that sets OK (R143, R147). -/
def State.commitPair (t h : Int) (s : State) : State :=
  { s with tempX10 := store16 t, humX10 := store16 h }

/-- DEC (R141): NO_FRAME without a valid 6-byte frame, SENSOR_BUSY on a busy frame, else the pair. -/
def execDec (s : State) : Result :=
  issue (fun s =>
    if s.rxvalid = false ∨ s.rxlen.toNat ≠ Config.frameLen then .next (s.complete .noFrame false)
    else
      match decodeFrame s.numerics s.rxFrame with
      | .busy => .next (s.complete .sensorBusy false)
      | .pair t h => .next ((s.commitPair t h).complete .none true)) s

/-- CLR (R150): both handle fields to 0 in one step. -/
def execClr (s : State) : Result :=
  issue (fun s => .next ({ s with tempX10 := 0#16, humX10 := 0#16 }.complete .none true)) s

end Sys2Proof.Machine
end

