-- ==== Sys2Proof/Machine/HostWords.lean ====
section
/-! DEFINITION. The host-sequence words DELAY, JF and RET, which the HOST executes itself (45_host_sequences.md
R163 to R165). -/

namespace Sys2Proof.Machine

/-- DELAY ms: an event, with no duration (R163, R246). -/
def execDelay (ms : BitVec 16) (s : State) : Result :=
  whileRunning (fun s => .next (s.emit (.delay ms)).nextWord) s

/-- JF t (R164): H_BAD_TARGET first, then H_NO_RESULT; jump if the last command failed. -/
def execJf (t : BitVec 16) (s : State) : Result :=
  whileRunning (fun s =>
    if s.prog.length ≤ t.toNat then raise .hBadTarget s
    else if s.okv = false then raise .hNoResult s
    else if s.ok = false then .next (s.jumpTo t)
    else .next s.nextWord) s

/-- RET v: HRET takes v and the HOST halts (R165). -/
def returnWith (v : RetVal) (s : State) : Result :=
  whileRunning (fun s => .next { s with hret := some v, hmode := .halt }) s

/-- RET FALSE (R165). -/
def execRetFalse (s : State) : Result := returnWith .boolFalse s

/-- RET TRUE (R165). -/
def execRetTrue (s : State) : Result := returnWith .boolTrue s

/-- RET VOID (R165). -/
def execRetVoid (s : State) : Result := returnWith .void s

end Sys2Proof.Machine
end

