-- ==== Sys2Proof/Machine/Flags.lean ====
section
/-! DEFINITION. The host-visible registers: STATUS and its flags, TEMP_X10, HUM_X10 (10_state.md R22 to R26). -/

namespace Sys2Proof.Machine

/-- STATUS.IDLE: 1 when PHASE = IDLE (R23). -/
def State.idleBit (s : State) : Bool := decide (s.phase = .idle)

/-- STATUS = zext_32(INITD : OK : OKV : IDLE) (R23). -/
def State.status (s : State) : Word :=
  (BitVec.ofBool s.initd ++ BitVec.ofBool s.ok ++ BitVec.ofBool s.okv ++ BitVec.ofBool s.idleBit).setWidth 32

/-- A read of TEMP_X10 returns sext_32(TEMP_X10) (R24). -/
def State.tempReg (s : State) : Word := s.tempX10.signExtend 32

/-- A read of HUM_X10 returns sext_32(HUM_X10) (R25). -/
def State.humReg (s : State) : Word := s.humX10.signExtend 32

/-- The register numbers of R22. -/
def regCmd : BitVec 8 := 0x0#8
def regStatus : BitVec 8 := 0x1#8
def regTemp : BitVec 8 := 0x2#8
def regHum : BitVec 8 := 0x3#8

/-- What a HOST read of register r returns; none where the read is a BAD_ACCESS: CMD is write-only and every
other number is unmapped (R22, R26). -/
def State.readReg (r : BitVec 8) (s : State) : Option Word :=
  if r = regStatus then some s.status
  else if r = regTemp then some s.tempReg
  else if r = regHum then some s.humReg
  else none

end Sys2Proof.Machine
end

