-- ==== Sys2Proof/Machine/Transactor.lean ====
section
/-! DEFINITION. The transactor: INIT, XW, XR, the sensor's pseudo-instructions, the wire address bytes, and
XACT's steps (40_transactor.md, 30_encoding.md R80, R90). -/

namespace Sys2Proof.Machine

/-- INIT (R103): REINIT if INITD = 1, else BUSINIT and INITD = 1. Its bus-level effects are abstract. -/
def execInit (s : State) : Result :=
  issue (fun s =>
    if s.initd then raise .reinit s
    else .next ({ s.emit .busInit with initd := true }.complete .none true)) s

/-- XW b0 (R102); the word's B1 and B2 are 0 (R74). -/
def execXw1 (b0 : Byte) (s : State) : Result := issueXw 1#3 b0 0#8 0#8 s

/-- XW b0, b1 (R102); the word's B2 is 0 (R74). -/
def execXw2 (b0 b1 : Byte) (s : State) : Result := issueXw 2#3 b0 b1 0#8 s

/-- XW b0, b1, b2 (R102). -/
def execXw3 (b0 b1 b2 : Byte) (s : State) : Result := issueXw 3#3 b0 b1 b2 s

/-- XR 1 (R120). -/
def execXr1 (s : State) : Result := issueXr 1#3 s

/-- XR 2 (R120). -/
def execXr2 (s : State) : Result := issueXr 2#3 s

/-- XR 3 (R120). -/
def execXr3 (s : State) : Result := issueXr 3#3 s

/-- XR 4 (R120). -/
def execXr4 (s : State) : Result := issueXr 4#3 s

/-- XR 5 (R120). -/
def execXr5 (s : State) : Result := issueXr 5#3 s

/-- XR 6 (R120). -/
def execXr6 (s : State) : Result := issueXr 6#3 s

/-- SENSOR_RESET: XW 0xBA (R81, R90); the word's B1 and B2 are 0. -/
def execSensorReset (s : State) : Result := issueXw 1#3 Config.cmdReset 0#8 0#8 s

/-- SENSOR_INIT: XW 0xE1, 0x08, 0x00 (R81, R90). -/
def execSensorInit (s : State) : Result := issueXw 3#3 Config.cmdInit Config.initP0 Config.initP1 s

/-- SENSOR_MEASURE: XW 0xAC, 0x33, 0x00 (R81, R90). -/
def execSensorMeasure (s : State) : Result := issueXw 3#3 Config.cmdMeasure Config.measP0 Config.measP1 s

/-- READ_FRAME: XR 6 (R90). -/
def execReadFrame (s : State) : Result := issueXr 6#3 s

/-- The address byte goes out after START, and the wait for its acknowledgment begins (R80, R111; log 2). -/
def driveAddress (rw : Bool) (s : State) : Result :=
  whileRunning (fun s => .next { s.emit (.addr (addrByte rw)) with phase := .wAddr, cnt := 0#14 }) s

/-- The address byte with the write bit (R80). -/
def execAddrW (s : State) : Result := driveAddress false s

/-- The address byte with the read bit (R80). -/
def execAddrR (s : State) : Result := driveAddress true s

/-- W_BUSY met: START, then the address byte of the running transfer's direction (R111). -/
def busyMet (s : State) : Result :=
  match s.curOp with
  | .xw => execAddrW (s.emit .start)
  | .xr => execAddrR (s.emit .start)

/-- W_BUSY timed out: no wire event (R111). -/
def busyTimeout (s : State) : Result := .next (s.complete .busBusyTimeout false)

/-- W_ADDR met (R112): the first payload byte of XW, or the first acknowledge setting of XR. -/
def addrMet (s : State) : Result :=
  match s.curOp with
  | .xw => .next { s.emit (.tx (s.txByte 0)) with idx := some 0#3, phase := .wBtf, cnt := 0#14 }
  | .xr => .next { s.emit (ackctl 0 s.curN) with idx := some 0#3, phase := .wRxne, cnt := 0#14 }

/-- W_BTF met (R115): the next payload byte, or STOP and success after the last one (log 17). -/
def btfMet (s : State) : Result :=
  if s.curIdx.toNat + 1 < s.curN then
    .next { s.emit (.tx (s.txByte (s.curIdx.toNat + 1))) with idx := some (s.curIdx + 1#3), cnt := 0#14 }
  else .next ((s.emit .stop).complete .none true)

/-- RxData: the byte captured, stored at RXBUF[IDX], with its RX event (R122, R32). An IDX of 6 or 7, which no run
reaches and the spec says nothing of, names no byte: nothing is stored (log 17). -/
def State.capture (s : State) : State :=
  { s.afterChoice.emit (.rx (s.nextChoice .rxData)) with
    rxbuf := s.rxbuf.setIfInBounds s.curIdx.toNat (some (s.nextChoice .rxData)) }

/-- After a byte was captured (R122): the next acknowledge setting, or STOP and success after the last one. -/
def afterCapture (s : State) : Result :=
  if s.curIdx.toNat + 1 < s.curN then
    .next { s.emit (ackctl (s.curIdx.toNat + 1) s.curN) with idx := some (s.curIdx + 1#3), cnt := 0#14 }
  else .next ({ s.emit .stop with rxvalid := true }.complete .none true)

/-- W_RXNE met (R122). -/
def rxneMet (s : State) : Result := afterCapture s.capture

/-- One XACT step: one sample of the phase's wait (R28, R110 to R122). In PHASE IDLE XACT has no step. -/
def xactStep (s : State) : Result :=
  match s.phase with
  | .idle => .refused .noStep
  | .wBusy => pollStep .busy false busyMet busyTimeout s
  | .wAddr => pollStep .addrAck true addrMet (fun s => .next (s.abort .addrTimeout)) s
  | .wBtf => pollStep .btf true btfMet (fun s => .next (s.abort .btfTimeout)) s
  | .wRxne => pollStep .rxne true rxneMet (fun s => .next (s.abort .rxneTimeout)) s

end Sys2Proof.Machine
end

