-- ==== Sys2Proof/Machine/Dispatch.lean ====
section
/-! DEFINITION. exec: one arm per row of the opcode table, each one direct call of its meaning. -/

namespace Sys2Proof.Machine

def exec (i : Instr) (s : State) : Host.Outcome State Fault Refusal :=
  match i with
  | .init => Sys2Proof.Machine.execInit s
  | .clr => Sys2Proof.Machine.execClr s
  | .xw1 b0 => Sys2Proof.Machine.execXw1 b0 s
  | .xw2 b0 b1 => Sys2Proof.Machine.execXw2 b0 b1 s
  | .xw3 b0 b1 b2 => Sys2Proof.Machine.execXw3 b0 b1 b2 s
  | .xr1 => Sys2Proof.Machine.execXr1 s
  | .xr2 => Sys2Proof.Machine.execXr2 s
  | .xr3 => Sys2Proof.Machine.execXr3 s
  | .xr4 => Sys2Proof.Machine.execXr4 s
  | .xr5 => Sys2Proof.Machine.execXr5 s
  | .xr6 => Sys2Proof.Machine.execXr6 s
  | .dec => Sys2Proof.Machine.execDec s
  | .delay ms => Sys2Proof.Machine.execDelay ms s
  | .jf t => Sys2Proof.Machine.execJf t s
  | .retFalse => Sys2Proof.Machine.execRetFalse s
  | .retTrue => Sys2Proof.Machine.execRetTrue s
  | .retVoid => Sys2Proof.Machine.execRetVoid s
  | .sensorReset => Sys2Proof.Machine.execSensorReset s
  | .sensorInit => Sys2Proof.Machine.execSensorInit s
  | .sensorMeasure => Sys2Proof.Machine.execSensorMeasure s
  | .readFrame => Sys2Proof.Machine.execReadFrame s
  | .addrW => Sys2Proof.Machine.execAddrW s
  | .addrR => Sys2Proof.Machine.execAddrR s

end Sys2Proof.Machine
end

