-- ==== Sys2Proof/Machine/Agents.lean ====
section
/-! DEFINITION. What an agent's step does: the HOST's register accesses (10_state.md R26), its writes to CMD
(40_transactor.md R101), its sequence (45_host_sequences.md R161 to R166), and the interleaving of HOST and XACT
steps (20_memory.md R62). -/

namespace Sys2Proof.Machine

/-- A HOST write of w to CMD (R101): OVERLAP, then ILLEGAL_CMD, then the command. A host word or a wire byte is
illegal as a command (R77, R78). -/
def cmdWrite (w : Word) (s : State) : Result :=
  issue (fun s =>
    match decodeWord w with
    | .ok i => if i.cls = .command then exec i s else raise .illegalCmd s
    | .error _ => raise .illegalCmd s) s

/-- A HOST read of register r (R26): the value, with no effect on the block, or BAD_ACCESS. -/
def regRead (r : BitVec 8) (s : State) : Result :=
  whileRunning (fun s =>
    match s.readReg r with
    | some v => .next { s with readData := some v }
    | none => raise .badAccess s) s

/-- A HOST write of w to register r (R26): CMD issues the word, every other register is a BAD_ACCESS. -/
def regWrite (r : BitVec 8) (w : Word) (s : State) : Result :=
  whileRunning (fun s => if r = regCmd then cmdWrite w s else raise .badAccess s) s

/-- What the HOST does with the word it fetched, by OP (R161, R78). -/
inductive HostWordKind where
  | command
  | hostWord
  | illegal
  deriving DecidableEq, Repr

/-- OP 0x1 to 0x5 is a block command, 0x8 to 0xA a host word, any other illegal (R161, R71). -/
def hostWordKind (w : Word) : HostWordKind :=
  match (opField w).toNat with
  | 0x1 => .command
  | 0x2 => .command
  | 0x3 => .command
  | 0x4 => .command
  | 0x5 => .command
  | 0x8 => .hostWord
  | 0x9 => .hostWord
  | 0xA => .hostWord
  | _ => .illegal

/-- After the CMD write of R162's step 1 the HOST waits; a fault writes nothing else (R205). -/
def thenWait (o : Result) : Result :=
  match o with
  | .next t => if t.fault = none then .next { t with hmode := .wait } else .next t
  | .fault r => .fault r
  | .refused r => .refused r

/-- A word of the sequence in RUN (R161 to R166). -/
def hostWord (w : Word) (s : State) : Result :=
  match hostWordKind w with
  | .command => thenWait (cmdWrite w s)
  | .hostWord =>
    match decodeWord w with
    | .ok i => exec i s
    | .error _ => raise .hIllegal s
  | .illegal => raise .hIllegal s

/-- Host fetch (R161): H_PC_END comes before decoding (R207). -/
def hostFetch (s : State) : Result :=
  match s.wordAtHpc with
  | none => raise .hPcEnd s
  | some w => hostWord w s

/-- Has the HOST's sequence a step (R161, R162)? -/
def State.seqEnabled (s : State) : Bool :=
  match s.hmode with
  | .run => true
  | .wait => s.idleBit
  | .halt => false

/-- Has XACT a step (R28)? FAULT is looked at by the step. -/
def State.xactEnabled (s : State) : Bool := !s.idleBit

/-- The HOST sequence's step: a fetch in RUN, the end of the wait in WAIT (R161, R162). HALT has none. -/
def seqStep (s : State) : Result :=
  match s.hmode with
  | .run => hostFetch s
  | .wait => if s.idleBit then .next { s.nextWord with hmode := .run } else .refused .noStep
  | .halt => .refused .noStep

/-- With no turn listed: XACT if it has a step, else the HOST's sequence (log 7). -/
def autoStep (s : State) : Result := if s.xactEnabled then xactStep s else seqStep s

/-- A turn that was taken is no longer listed; a fault's step writes nothing but FAULT (R205). -/
def thenTurns (rest : List Turn) (o : Result) : Result :=
  match o with
  | .next t => if t.fault = none then .next { t with turns := rest } else .next t
  | .fault r => .fault r
  | .refused r => .refused r

/-- The first listed turn whose agent has a step is taken; a turn of an agent that has none is passed over
(log 7). A register access of the HOST has its step in every PHASE (R26) and, by the model's choice, in every HMODE,
HALT and the final state among them (log 19). -/
def takeTurns : List Turn → State → Result
  | [], s => thenTurns [] (autoStep s)
  | .xact :: rest, s => if s.xactEnabled then thenTurns rest (xactStep s) else takeTurns rest s
  | .seq :: rest, s => if s.seqEnabled then thenTurns rest (seqStep s) else takeTurns rest s
  | .read r :: rest, s => thenTurns rest (regRead r s)
  | .write r w :: rest, s => thenTurns rest (regWrite r w s)

/-- One step of the machine: none while FAULT is set (R205). -/
def agentStep (s : State) : Result := whileRunning (fun s => takeTurns s.turns s) s

/-- PROG with w at index k, padded with zero words. -/
def placeWord (prog : List Word) (k : Nat) (w : Word) : List Word :=
  prog.take k ++ List.replicate (k - prog.length) 0#32 ++ [w] ++ prog.drop (k + 1)

/-- s with the word w where the HOST fetches next, and the next turn the HOST's (log 9). -/
def State.placeHostWord (w : Word) (s : State) : State :=
  { s with fault := none, turns := [.seq], hmode := .run, hpcPast := false, prog := placeWord s.prog s.hpc.toNat w }

/-- s at the sample that lets XACT drive its address byte, of the direction the byte b has: W_BUSY, with BUSY
known to read 0 next (R111; log 2). -/
def State.placeWireByte (b : Byte) (s : State) : State :=
  { s with
    fault := none, turns := [.xact], phase := .wBusy
    op := some (if b.getLsbD 0 then .xr else .xw), cnt := 0#14, envInput := 0x00#8 :: s.envInput }

/-- s with an instruction of at most 8 bits (a wire byte) or of at most 32 bits (a word) placed where the next
step takes its instruction. -/
def State.placeInstr (nbits w : Nat) (s : State) : State :=
  if nbits ≤ 8 then s.placeWireByte (BitVec.ofNat 8 (w % 2 ^ nbits))
  else s.placeHostWord (BitVec.ofNat 32 (w % 2 ^ nbits))

end Sys2Proof.Machine
end

