-- ==== Sys2Proof/Machine/Step.lean ====
section
/-! DEFINITION. The machine's step and the host's placing of an instruction. Both only call Machine/Agents.lean. -/

namespace Sys2Proof.Machine

/-- One step of the machine (00_scope.md R13, 20_memory.md R62). -/
def step (s : State) : Host.Outcome State Fault Refusal := agentStep s

/-- s with the instruction of nbits bits w stored where step takes its next instruction (log 9). -/
def State.withFetchWord (s : State) (nbits w : Nat) : State := s.placeInstr nbits w

end Sys2Proof.Machine
end

