-- ==== Sys2Proof/Machine/Assembler.lean ====
section
/-! DEFINITION. Assembly (30_encoding.md R89, R90) and the three sensor sequences (45_host_sequences.md R170 to
R172). An assembly text is a list of characters; what the spec leaves open of its white space is log 16. -/

namespace Sys2Proof.Machine

/-- The target of a JF line: a word's index, or a label (R89). -/
inductive AsmTarget where
  | index (t : Nat)
  | label (name : List Char)
  deriving DecidableEq, Repr

/-- The forms of R89 and R90, their operands as written. -/
inductive AsmStmt where
  | init
  | clr
  | xw (bs : List Nat)
  | xr (n : Nat)
  | dec
  | delay (ms : Nat)
  | jf (t : AsmTarget)
  | retFalse
  | retTrue
  | retVoid
  | sensorReset
  | sensorInit
  | sensorMeasure
  | readFrame
  deriving DecidableEq, Repr

/-- A line: an optional label and one word (R89). -/
structure AsmLine where
  label : Option (List Char)
  stmt : AsmStmt
  deriving DecidableEq, Repr

/-- A byte operand; refused if it does not fit (R89). -/
def asmByte (v : Nat) : Option Byte := if v ≤ 0xFF then some (BitVec.ofNat 8 v) else none

/-- A 16-bit operand; refused if it does not fit (R89). -/
def asmHalf (v : Nat) : Option (BitVec 16) := if v ≤ 0xFFFF then some (BitVec.ofNat 16 v) else none

/-- The index of the line that carries a label. -/
def findLabel (name : List Char) : List AsmLine → Option Nat
  | [] => none
  | l :: ls => if l.label = some name then some 0 else (findLabel name ls).map (· + 1)

/-- XW's form by its number of operands (R89). -/
def asmXw (bs : List Nat) : Option Instr :=
  match bs with
  | [a] => (asmByte a).map Instr.xw1
  | [a, b] => (asmByte a).bind fun a => (asmByte b).map fun b => Instr.xw2 a b
  | [a, b, c] =>
    (asmByte a).bind fun a => (asmByte b).bind fun b => (asmByte c).map fun c => Instr.xw3 a b c
  | _ => none

/-- XR n, 1 <= n <= 6 (R89). -/
def asmXr (n : Nat) : Option Instr :=
  match n with
  | 1 => some .xr1
  | 2 => some .xr2
  | 3 => some .xr3
  | 4 => some .xr4
  | 5 => some .xr5
  | 6 => some .xr6
  | _ => none

/-- The index a JF target names in the whole text (R89). -/
def asmTarget (lines : List AsmLine) (t : AsmTarget) : Option Nat :=
  match t with
  | .index k => some k
  | .label name => findLabel name lines

/-- A statement's instruction; none where the assembler refuses it (R89). -/
def assembleStmt (lines : List AsmLine) (st : AsmStmt) : Option Instr :=
  match st with
  | .init => some .init
  | .clr => some .clr
  | .xw bs => asmXw bs
  | .xr n => asmXr n
  | .dec => some .dec
  | .delay ms => (asmHalf ms).map Instr.delay
  | .jf t => (asmTarget lines t).bind fun k => (asmHalf k).map Instr.jf
  | .retFalse => some .retFalse
  | .retTrue => some .retTrue
  | .retVoid => some .retVoid
  | .sensorReset => some .sensorReset
  | .sensorInit => some .sensorInit
  | .sensorMeasure => some .sensorMeasure
  | .readFrame => some .readFrame

/-- The instructions of the lines ls, labels looked up in the whole text. -/
def assembleLines (whole : List AsmLine) : List AsmLine → Option (List Instr)
  | [] => some []
  | l :: ls => (assembleStmt whole l.stmt).bind fun i => (assembleLines whole ls).map (i :: ·)

/-- The instructions of a text; refused unless they are a well-formed sequence (R78: a JF names a word of the
sequence; R160: at most 65536 words). -/
def assemble (lines : List AsmLine) : Option (List Instr) :=
  (assembleLines lines lines).bind fun is => if sequenceWellFormed is then some is else none

/-- The words of a sequence. -/
def sequenceWords (is : List Instr) : List Word := is.map encode

/-- White space of a line. -/
def isBlank (c : Char) : Bool := c == ' ' || c == '\t'

/-- A line without its white space at both ends. -/
def trimBlank (cs : List Char) : List Char := ((cs.dropWhile isBlank).reverse.dropWhile isBlank).reverse

/-- The value of a hex digit. -/
def hexDigit (c : Char) : Option Nat :=
  if 48 ≤ c.toNat ∧ c.toNat ≤ 57 then some (c.toNat - 48)
  else if 65 ≤ c.toNat ∧ c.toNat ≤ 70 then some (c.toNat - 55)
  else if 97 ≤ c.toNat ∧ c.toNat ≤ 102 then some (c.toNat - 87)
  else none

/-- Digits in a base, after the value read so far. -/
def readDigits (base : Nat) : List Char → Nat → Option Nat
  | [], acc => some acc
  | c :: cs, acc =>
    (hexDigit c).bind fun d => if d < base then readDigits base cs (acc * base + d) else none

/-- A number: decimal or 0x hex (R89). -/
def readNumber (cs : List Char) : Option Nat :=
  match cs with
  | '0' :: 'x' :: d :: ds => readDigits 16 (d :: ds) 0
  | d :: ds => readDigits 10 (d :: ds) 0
  | [] => none

/-- The comma-separated pieces of an operand list; piece is read back to front. -/
def splitCommas : List Char → List Char → List (List Char)
  | [], piece => [piece.reverse]
  | c :: cs, piece => if c = ',' then piece.reverse :: splitCommas cs [] else splitCommas cs (c :: piece)

/-- The numbers of an operand list. -/
def readNumbers : List (List Char) → Option (List Nat)
  | [] => some []
  | p :: ps => (readNumber (trimBlank p)).bind fun v => (readNumbers ps).map (v :: ·)

/-- A JF operand: a number, or else a label. -/
def readTarget (cs : List Char) : Option AsmTarget :=
  match cs with
  | [] => none
  | c :: rest =>
    match readNumber (c :: rest) with
    | some k => some (.index k)
    | none => some (.label (c :: rest))

/-- A statement from its mnemonic and the text of its operands; none for a mnemonic not in R89's tables. -/
def readStmt (mn args : List Char) : Option AsmStmt :=
  if mn = ['I','N','I','T'] ∧ args = [] then some .init
  else if mn = ['C','L','R'] ∧ args = [] then some .clr
  else if mn = ['X','W'] then (readNumbers (splitCommas args [])).map AsmStmt.xw
  else if mn = ['X','R'] then (readNumber args).map AsmStmt.xr
  else if mn = ['D','E','C'] ∧ args = [] then some .dec
  else if mn = ['D','E','L','A','Y'] then (readNumber args).map AsmStmt.delay
  else if mn = ['J','F'] then (readTarget args).map AsmStmt.jf
  else if mn = ['R','E','T'] ∧ args = ['F','A','L','S','E'] then some .retFalse
  else if mn = ['R','E','T'] ∧ args = ['T','R','U','E'] then some .retTrue
  else if mn = ['R','E','T'] ∧ args = ['V','O','I','D'] then some .retVoid
  else if mn = ['S','E','N','S','O','R','_','R','E','S','E','T'] ∧ args = [] then some .sensorReset
  else if mn = ['S','E','N','S','O','R','_','I','N','I','T'] ∧ args = [] then some .sensorInit
  else if mn = ['S','E','N','S','O','R','_','M','E','A','S','U','R','E'] ∧ args = [] then some .sensorMeasure
  else if mn = ['R','E','A','D','_','F','R','A','M','E'] ∧ args = [] then some .readFrame
  else none

/-- A line's label, if it begins with one, and what follows it (R89). The word index that the listings of
95_test_vectors.md print before each word is no part of a line: the model reads it as a label, and refuses a line with
both (log 16). -/
def splitLabel (cs : List Char) : Option (List Char) × List Char :=
  if cs.contains ':' then
    (some (trimBlank (cs.takeWhile (· ≠ ':'))), (cs.dropWhile (· ≠ ':')).drop 1)
  else (none, cs)

/-- A line of text: an optional label, one word, an optional comment after ';' (R89). -/
def readLine (cs : List Char) : Option AsmLine :=
  let code := splitLabel (cs.takeWhile (· ≠ ';'))
  let body := trimBlank code.2
  (readStmt (body.takeWhile (fun c => !isBlank c)) (trimBlank (body.dropWhile (fun c => !isBlank c)))).map
    fun st => { label := code.1, stmt := st }

/-- The lines of a text. -/
def readLines : List (List Char) → Option (List AsmLine)
  | [] => some []
  | l :: ls => (readLine l).bind fun x => (readLines ls).map (x :: ·)

/-- A text, one line an element, to its words; none where the assembler refuses it (R89). -/
def assembleText (ls : List (List Char)) : Option (List Word) :=
  (readLines ls).bind fun lines => (assemble lines).map sequenceWords

/-- BEGIN (R170). -/
def seqBegin : List Instr :=
  [.init, .clr, .xw1 Config.cmdReset, .jf 9#16, .delay Config.resetDelayMs,
    .xw3 Config.cmdInit Config.initP0 Config.initP1, .jf 9#16, .delay Config.initDelayMs, .retTrue, .retFalse]

/-- RESET (R171). -/
def seqReset : List Instr := [.xw1 Config.cmdReset, .delay Config.resetDelayMs, .retVoid]

/-- READ (R172). -/
def seqRead : List Instr :=
  [.xw3 Config.cmdMeasure Config.measP0 Config.measP1, .jf 8#16, .delay Config.measureDelayMs, .xr6, .jf 8#16,
    .dec, .jf 8#16, .retTrue, .retFalse]

end Sys2Proof.Machine
end

