-- ==== Sys2Proof/Safety.lean ====
section
/-! DEFINITION. The terms claims are written in: final runs (45_host_sequences.md R167), launch premises
(70_reset_and_hazards.md R236), the observation (10_state.md R33), the wire shapes (30_encoding.md R88), the
budget of a transaction (40_transactor.md R131), and the machine's invariants. -/

namespace Sys2Proof.Machine

/-- The invariant's part on OP, N and IDX: while a command runs they hold values (10_state.md R20, R39), N is a
legal count (R70, R74, R75), and IDX is below N. -/
def State.transferWf (s : State) : Bool :=
  match s.phase, s.op, s.n, s.idx with
  | .idle, _, _, _ => true
  | .wBusy, some .xw, some n, some _ => decide (1 ≤ n.toNat ∧ n.toNat ≤ 3)
  | .wBusy, some .xr, some n, some _ => decide (1 ≤ n.toNat ∧ n.toNat ≤ 6)
  | .wAddr, some .xw, some n, some _ => decide (1 ≤ n.toNat ∧ n.toNat ≤ 3)
  | .wAddr, some .xr, some n, some _ => decide (1 ≤ n.toNat ∧ n.toNat ≤ 6)
  | .wBtf, some .xw, some n, some i => decide (i.toNat < n.toNat ∧ n.toNat ≤ 3)
  | .wRxne, some .xr, some n, some i => decide (i.toNat < n.toNat ∧ n.toNat ≤ 6)
  | _, _, _, _ => false

/-- Bytes 0 to k - 1 of a buffer are written (10_state.md R39). -/
def written (buf : List (Option Byte)) (k : Nat) : Bool :=
  decide (k ≤ buf.length) && (buf.take k).all Option.isSome

/-- While an XW runs the payload is in TXBUF; while an XR receives, the bytes before IDX are in RXBUF; a valid
frame has all its bytes in RXBUF (10_state.md R39). -/
def State.buffersWf (s : State) : Bool :=
  (s.phase == .idle || s.curOp == .xr || written s.txbuf.toList s.curN) &&
  (s.phase != .wRxne || written s.rxbuf.toList s.curIdx.toNat) &&
  (!s.rxvalid || written s.rxbuf.toList s.rxlen.toNat)

/-- While an XR runs, RXVALID is 0 and RXLEN is N (40_transactor.md R101, R122). -/
def State.receiveWf (s : State) : Bool :=
  s.phase == .idle || s.curOp == .xw || (!s.rxvalid && decide (s.rxlen.toNat = s.curN))

/-- While a command runs, INITD = 1, OKV = OK = 0 and fewer than POLL_LIMIT samples were taken; CNT never
exceeds POLL_LIMIT; OKV = 0 means OK = 0 (10_state.md R23, R29, 40_transactor.md R101). -/
def State.flagsWf (s : State) : Bool :=
  (s.phase == .idle || (s.initd && !s.okv && !s.ok && decide (s.cnt.toNat < s.pollLimit.toNat))) &&
  decide (s.cnt.toNat ≤ s.pollLimit.toNat) && (s.okv || !s.ok)

/-- CAUSE is NONE exactly when the last completed command did not fail (10_state.md R30). -/
def State.causeWf (s : State) : Bool := !s.okv || (s.ok == (s.cause == .none))

/-- The handle holds decoded values: TEMP_X10 in [-500, 1499] and HUM_X10 in [0, 999] (10_state.md R24, R25). -/
def State.handleWf (s : State) : Bool :=
  decide (-500 ≤ s.tempX10.toInt ∧ s.tempX10.toInt ≤ 1499 ∧ 0 ≤ s.humX10.toInt ∧ s.humX10.toInt ≤ 999)

/-- The HOST: a sequence has at most 65536 words, and HPC goes past index 0xFFFF only at the end of one that has all
of them; HRET is set exactly when the HOST has halted; a waiting HOST stands at a word (10_state.md R38,
45_host_sequences.md R160, R162, R165). -/
def State.hostWf (s : State) : Bool :=
  decide (s.prog.length ≤ maxSequence) &&
  (!s.hpcPast || (s.hpc == 0#16 && decide (s.prog.length = maxSequence))) &&
  (s.hmode == .halt) == s.hret.isSome && (s.hmode != .wait || s.wordAtHpc.isSome)

/-- POLL_LIMIT is at least 1; its upper bound is its width's (00_scope.md R6). -/
def State.paramsWf (s : State) : Bool := decide (1 ≤ s.pollLimit.toNat)

/-- The machine's invariant. -/
abbrev State.Inv (s : State) : Prop :=
  s.transferWf = true ∧ s.buffersWf = true ∧ s.receiveWf = true ∧ s.flagsWf = true ∧ s.causeWf = true ∧
    s.handleWf = true ∧ s.hostWf = true ∧ s.paramsWf = true

/-- A final state (45_host_sequences.md R167). -/
abbrev State.Final (s : State) : Prop := s.hmode = .halt ∧ s.phase = .idle ∧ s.fault = none

/-- CleanLaunch (70_reset_and_hazards.md R236). -/
abbrev State.CleanLaunch (s : State) : Prop :=
  s.fault = none ∧ s.phase = .idle ∧ s.okv = false ∧ s.h = [] ∧ s.tempX10 = 0#16 ∧ s.humX10 = 0#16 ∧
    s.initd = false ∧ s.rxvalid = false ∧ s.rxlen = 0#3 ∧ s.cause = .none ∧ s.hpc = 0#16 ∧
    s.hpcPast = false ∧ s.hmode = .run

/-- AfterBegin (70_reset_and_hazards.md R236). -/
abbrev State.AfterBegin (s : State) : Prop :=
  s.fault = none ∧ s.phase = .idle ∧ s.initd = true ∧ s.hpc = 0#16 ∧ s.hpcPast = false ∧ s.hmode = .run

/-- The wire-level events of a history, in order (10_state.md R31). -/
def wire (h : List Event) : List Event := h.filter Event.isWire

/-- What a claim about a run may read (10_state.md R33). -/
structure Observation where
  status : Word
  temp : Word
  hum : Word
  hret : Option RetVal
  events : List Event
  faulted : Bool
  deriving DecidableEq, Repr

/-- The observation of a state (10_state.md R33). -/
def State.observe (s : State) : Observation where
  status := s.status
  temp := s.tempReg
  hum := s.humReg
  hret := s.hret
  events := s.h.filter Event.isObserved
  faulted := s.fault.isSome

/-- The wire events of a complete XW of the bytes bs (30_encoding.md R88). -/
def xwShape (bs : List Byte) : List Event :=
  [.start, .addr (addrByte false)] ++ bs.map Event.tx ++ [.stop]

/-- ACK RX(b) for every byte but the last, NACK RX(b) for the last (30_encoding.md R88). -/
def rxShape : List Byte → List Event
  | [] => []
  | [b] => [.nack, .rx b]
  | b :: c :: bs => [.ack, .rx b] ++ rxShape (c :: bs)

/-- The wire events of a complete XR that captured the bytes bs (30_encoding.md R88). -/
def xrShape (bs : List Byte) : List Event :=
  [.start, .addr (addrByte true)] ++ rxShape bs ++ [.stop]

/-- How many waits are still to be begun after the current one (40_transactor.md R131). -/
def State.waitsLeft (s : State) : Nat :=
  match s.phase with
  | .idle => 0
  | .wBusy => s.curN + 1
  | .wAddr => s.curN
  | .wBtf => s.curN - 1 - s.curIdx.toNat
  | .wRxne => s.curN - 1 - s.curIdx.toNat

/-- A bound on the XACT steps until finish: POLL_LIMIT for each wait still to be begun and what is left of the
current one (40_transactor.md R131). -/
def State.budget (s : State) : Nat :=
  match s.phase with
  | .idle => 0
  | _ => s.waitsLeft * s.pollLimit.toNat + (s.pollLimit.toNat - s.cnt.toNat)

/-- The illegal command words, case by case (30_encoding.md R77). -/
abbrev IllegalCommand (w : Word) : Prop :=
  (opField w = 0x0#4 ∨ opField w = 0x6#4 ∨ opField w = 0x7#4 ∨ 0x8 ≤ (opField w).toNat) ∨
  ((opField w = 0x1#4 ∨ opField w = 0x2#4 ∨ opField w = 0x5#4) ∧ belowOp w ≠ 0#28) ∨
  (opField w = 0x3#4 ∧
    ((nField w ≠ 1#4 ∧ nField w ≠ 2#4 ∧ nField w ≠ 3#4) ∨
     (nField w = 1#4 ∧ (b1Field w ≠ 0#8 ∨ b2Field w ≠ 0#8)) ∨ (nField w = 2#4 ∧ b2Field w ≠ 0#8))) ∨
  (opField w = 0x4#4 ∧ (nField w = 0#4 ∨ 7 ≤ (nField w).toNat ∨ belowN w ≠ 0#24))

/-- The illegal host words, case by case: words that are neither a block command word (OP 0x1 to 0x5) nor a legal
DELAY, JF or RET (30_encoding.md R78). -/
abbrev IllegalHostWord (w : Word) : Prop :=
  (opField w = 0x0#4 ∨ opField w = 0x6#4 ∨ opField w = 0x7#4 ∨ 0xB ≤ (opField w).toNat) ∨
  ((opField w = 0x8#4 ∨ opField w = 0x9#4 ∨ opField w = 0xA#4) ∧ hostZero w ≠ 0#12) ∨
  (opField w = 0xA#4 ∧ (retZero w ≠ 0#14 ∨ retV w = 3#2))

/-- The next step is the HOST sequence's, if it has one: its turn is listed first, or none is and XACT is idle. -/
abbrev State.HostTurn (s : State) : Prop :=
  s.turns.head? = some .seq ∨ (s.turns = [] ∧ s.phase = .idle)

/-- The next step is XACT's: it has one, and its turn is listed first or none is. -/
abbrev State.XactTurn (s : State) : Prop :=
  s.phase ≠ .idle ∧ (s.turns.head? = some .xact ∨ s.turns = [])

/-- The HOST may issue w to CMD next: w is the word its sequence stands at, or a write of w to CMD is listed. -/
abbrev State.MayIssue (s : State) (w : Word) : Prop :=
  (s.hpcPast = false ∧ s.prog[s.hpc.toNat]? = some w) ∨ Turn.write regCmd w ∈ s.turns

/-- k steps of XACT alone: what the HOST sees of a transaction while it waits (45_host_sequences.md R162). An
idle XACT has no step. -/
def xactRun : Nat → State → Result
  | 0, s => .next s
  | k + 1, s =>
    if s.phase = .idle then .next s
    else
      match xactStep s with
      | .next t => xactRun k t
      | .fault r => .fault r
      | .refused r => .refused r

end Sys2Proof.Machine
end

