-- ==== Sys2Proof/Certificates/Slice0/Obligations.lean ====
section
/-! DEFINITION. The statements for the provers. Each docstring names the rule of spec/ it formalises. -/

open Sys2Proof Sys2Proof.Machine

/-! ## Encoding -/

/-- R71 to R78, R80, R90: the decoder gives back every instruction that was encoded, every operand at every
value; a pseudo-instruction's word is its core instruction's (log 1). -/
def Obligations.DecodeOfEncode : Prop :=
  (∀ i : Instr, decodeBits i.width (encode i) = .ok i.core) ∧
  (∀ i : Instr, i ≠ .sensorReset → i ≠ .sensorInit → i ≠ .sensorMeasure → i ≠ .readFrame →
    decodeBits i.width (encode i) = .ok i)

/-- R77, R87: a word has one meaning at most: what a word decodes to encodes to that word. That no word decodes to a
pseudo-instruction (i.core = i) is the model's choice (log 1). -/
def Obligations.EncodeOfDecode : Prop :=
  (∀ (w : Word) (i : Instr), decodeWord w = .ok i → encode i = w ∧ i.core = i ∧ i.width = 32) ∧
  (∀ (b : Byte) (i : Instr), decodeAddr b = .ok i → encode i = b.setWidth 32 ∧ i.width = 8)

/-- R77: an illegal word written to CMD raises ILLEGAL_CMD and writes nothing else; every other word is a legal
command and is carried out. -/
def Obligations.IllegalCommandWords : Prop :=
  ∀ (w : Word) (s : State), s.fault = none → s.phase = .idle →
    (IllegalCommand w → cmdWrite w s = .next { s with fault := some .illegalCmd }) ∧
    (¬ IllegalCommand w → ∃ i, decodeWord w = .ok i ∧ i.cls = .command ∧ cmdWrite w s = exec i s)

/-- R166 with R78's cases: an illegal host word raises H_ILLEGAL in its fetch step and writes nothing else. -/
def Obligations.IllegalHostWords : Prop :=
  ∀ (w : Word) (s : State), s.fault = none → s.HostTurn → s.hmode = .run →
    s.hpcPast = false → s.prog[s.hpc.toNat]? = some w → IllegalHostWord w → step s = .next { s with fault := some .hIllegal }

/-- R72 to R78, R80: words of the spec's encoding tables decode to the instructions they stand for. -/
def Obligations.SpecWordsDecode : Prop :=
  decodeWord 0x10000000#32 = .ok .init ∧ decodeWord 0x20000000#32 = .ok .clr ∧
  decodeWord 0x50000000#32 = .ok .dec ∧ decodeWord 0x32E10800#32 = .ok (.xw2 0xE1#8 0x08#8) ∧
  decodeWord 0x46000000#32 = .ok .xr6 ∧ decodeWord 0x80000014#32 = .ok (.delay 20#16) ∧
  decodeWord 0x90000009#32 = .ok (.jf 9#16) ∧ decodeWord 0xA0000002#32 = .ok .retVoid ∧
  decodeAddr 0x70#8 = .ok .addrW ∧ decodeAddr 0x71#8 = .ok .addrR

/-! ## Results of the instructions -/

/-- R103: INIT from IDLE. -/
def Obligations.InitResult : Prop :=
  ∀ s : State, s.fault = none → s.phase = .idle →
    (s.initd = false → exec .init s =
      .next { s with
        h := s.h ++ [.busInit], initd := true, cause := .none, phase := .idle, okv := true, ok := true }) ∧
    (s.initd = true → exec .init s = .next { s with fault := some .reinit })

/-- R150: CLR from IDLE zeroes both handle fields in one step and needs no INIT. -/
def Obligations.ClrResult : Prop :=
  ∀ s : State, s.fault = none → s.phase = .idle →
    exec .clr s =
      .next { s with
        tempX10 := 0#16, humX10 := 0#16, cause := .none, phase := .idle, okv := true, ok := true }

/-- R101, R102, R55: an XW issued from IDLE after INIT starts a write transaction with its payload in TXBUF;
before INIT it raises NOT_INIT. All three bytes of the word are copied (R55, R79), zeros from N on (log 8). -/
def Obligations.WriteIssueResult : Prop :=
  ∀ (s : State) (a b c : Byte), s.fault = none → s.phase = .idle →
    let u : State :=
      { s with okv := false, ok := false, op := some .xw, idx := some 0#3, cnt := 0#14, phase := .wBusy }
    (s.initd = true →
      exec (.xw1 a) s = .next { u with n := some 1#3, txbuf := #v[some a, some 0x00#8, some 0x00#8] } ∧
      exec (.xw2 a b) s = .next { u with n := some 2#3, txbuf := #v[some a, some b, some 0x00#8] } ∧
      exec (.xw3 a b c) s = .next { u with n := some 3#3, txbuf := #v[some a, some b, some c] }) ∧
    (s.initd = false →
      exec (.xw1 a) s = .next { s with fault := some .notInit } ∧
      exec (.xw2 a b) s = .next { s with fault := some .notInit } ∧
      exec (.xw3 a b c) s = .next { s with fault := some .notInit })

/-- R101, R120: an XR issued from IDLE after INIT starts a read transaction of N bytes; before INIT it raises
NOT_INIT. -/
def Obligations.ReadIssueResult : Prop :=
  ∀ (s : State) (i : Instr) (k : BitVec 3), s.fault = none → s.phase = .idle →
    (i, k) ∈ [(Instr.xr1, 1#3), (.xr2, 2#3), (.xr3, 3#3), (.xr4, 4#3), (.xr5, 5#3), (.xr6, 6#3)] →
    (s.initd = true → exec i s =
      .next { s with
        okv := false, ok := false, op := some .xr, n := some k, idx := some 0#3, cnt := 0#14,
        rxvalid := false, rxlen := k, phase := .wBusy }) ∧
    (s.initd = false → exec i s = .next { s with fault := some .notInit })

/-- R81, R90: the pseudo-instructions start the transactions of the sensor's command bytes and of the 6-byte
frame, and do in every state exactly what their expansions do. All three bytes of SENSOR_RESET's word are copied to
TXBUF (R55, R79), zeros from N on (log 8). -/
def Obligations.PseudoResult : Prop :=
  (∀ s : State,
    exec .sensorReset s = exec (.xw1 0xBA#8) s ∧ exec .sensorInit s = exec (.xw3 0xE1#8 0x08#8 0x00#8) s ∧
    exec .sensorMeasure s = exec (.xw3 0xAC#8 0x33#8 0x00#8) s ∧ exec .readFrame s = exec .xr6 s) ∧
  (∀ s : State, s.fault = none → s.phase = .idle → s.initd = true →
    let u : State := { s with okv := false, ok := false, idx := some 0#3, cnt := 0#14, phase := .wBusy }
    exec .sensorReset s =
      .next { u with op := some .xw, n := some 1#3, txbuf := #v[some 0xBA#8, some 0x00#8, some 0x00#8] } ∧
    exec .sensorInit s =
      .next { u with op := some .xw, n := some 3#3, txbuf := #v[some 0xE1#8, some 0x08#8, some 0x00#8] } ∧
    exec .sensorMeasure s =
      .next { u with op := some .xw, n := some 3#3, txbuf := #v[some 0xAC#8, some 0x33#8, some 0x00#8] } ∧
    exec .readFrame s = .next { u with op := some .xr, n := some 6#3, rxvalid := false, rxlen := 6#3 })

/-- R141, R143, R140, R53: DEC of a valid frame that is not busy commits the pair in the step that sets OK; the pair
is the decoder's under the machine's DECODE_NUMERICS (log 20). The frame is RXBUF[0..5] in order: with the bytes
of f there, f[0] first, the pair is f's. -/
def Obligations.DecodeCommits : Prop :=
  (∀ s : State, s.fault = none → s.phase = .idle → s.rxvalid = true → s.rxlen = 6#3 →
    (s.rxByte 0).getLsbD 7 = false →
    exec .dec s =
      .next { s with
        tempX10 := BitVec.ofInt 16 (tempX10 s.numerics s.rxFrame.tempRaw),
        humX10 := BitVec.ofInt 16 (humX10 s.numerics s.rxFrame.humRaw),
        cause := .none, phase := .idle, okv := true, ok := true }) ∧
  (∀ (s : State) (f : Frame), s.fault = none → s.phase = .idle → s.rxvalid = true → s.rxlen = 6#3 →
    (∀ (j : Nat) (hj : j < 6), s.rxbuf[j] = some f[j]) → f[0].getLsbD 7 = false →
    exec .dec s =
      .next { s with
        tempX10 := BitVec.ofInt 16 (tempX10 s.numerics f.tempRaw),
        humX10 := BitVec.ofInt 16 (humX10 s.numerics f.humRaw),
        cause := .none, phase := .idle, okv := true, ok := true })

/-- R142: with the busy bit set DEC finishes with OK = 0 and CAUSE = SENSOR_BUSY and writes neither handle field,
whatever the frame's other bytes hold. -/
def Obligations.BusyFrameFails : Prop :=
  ∀ s : State, s.fault = none → s.phase = .idle → s.rxvalid = true → s.rxlen = 6#3 →
    (s.rxByte 0).getLsbD 7 = true →
    exec .dec s = .next { s with cause := .sensorBusy, phase := .idle, okv := true, ok := false }

/-- R141: DEC without a valid 6-byte frame fails with NO_FRAME and leaves the handle untouched, INIT or not. -/
def Obligations.NoFrameFails : Prop :=
  ∀ s : State, s.fault = none → s.phase = .idle → (s.rxvalid = false ∨ s.rxlen ≠ 6#3) →
    exec .dec s = .next { s with cause := .noFrame, phase := .idle, okv := true, ok := false }

/-- R149: DEC writes neither RXBUF, RXVALID nor RXLEN, and a second DEC gives the same result. -/
def Obligations.DecodeKeepsFrame : Prop :=
  ∀ s : State, s.fault = none → s.phase = .idle →
    ∃ t, exec .dec s = .next t ∧ t.rxbuf = s.rxbuf ∧ t.rxvalid = s.rxvalid ∧ t.rxlen = s.rxlen ∧
      exec .dec t = .next t

/-- R163: DELAY appends its event and moves to the next word. That HPC does not wrap after index 0xFFFF, hpcPast
saying so, is log 6. -/
def Obligations.DelayResult : Prop :=
  ∀ (s : State) (ms : BitVec 16), s.fault = none →
    exec (.delay ms) s =
      .next { s with h := s.h ++ [.delay ms], hpc := s.hpc + 1#16, hpcPast := s.hpcPast || s.hpc == 0xFFFF#16 }

/-- R164: JF with a legal target and a result jumps exactly when the last command failed. That HPC does not wrap after
index 0xFFFF, hpcPast saying so, is log 6. -/
def Obligations.JumpIfFailed : Prop :=
  ∀ (s : State) (t : BitVec 16), s.fault = none → t.toNat < s.prog.length → s.okv = true →
    (s.ok = false → exec (.jf t) s = .next { s with hpc := t, hpcPast := false }) ∧
    (s.ok = true → exec (.jf t) s =
      .next { s with hpc := s.hpc + 1#16, hpcPast := s.hpcPast || s.hpc == 0xFFFF#16 })

/-- R164, R207: JF raises H_BAD_TARGET for a target outside the sequence, result or not, and only then
H_NO_RESULT. -/
def Obligations.JumpFaults : Prop :=
  ∀ (s : State) (t : BitVec 16), s.fault = none →
    (s.prog.length ≤ t.toNat → exec (.jf t) s = .next { s with fault := some .hBadTarget }) ∧
    (t.toNat < s.prog.length → s.okv = false → exec (.jf t) s = .next { s with fault := some .hNoResult })

/-- R165: RET sets HRET to its value and halts the HOST. -/
def Obligations.ReturnResult : Prop :=
  ∀ s : State, s.fault = none →
    exec .retFalse s = .next { s with hret := some .boolFalse, hmode := .halt } ∧
    exec .retTrue s = .next { s with hret := some .boolTrue, hmode := .halt } ∧
    exec .retVoid s = .next { s with hret := some .void, hmode := .halt }

/-- R80, R111: the wire address bytes. Their meaning as instructions, the byte's transmission and the start of
the wait for its acknowledgment, is the model's (log 2). -/
def Obligations.AddressByteResult : Prop :=
  ∀ s : State, s.fault = none →
    exec .addrW s = .next { s with h := s.h ++ [.addr 0x70#8], phase := .wAddr, cnt := 0#14 } ∧
    exec .addrR s = .next { s with h := s.h ++ [.addr 0x71#8], phase := .wAddr, cnt := 0#14 }

/-- R101, R207: every command issued while a transaction runs raises OVERLAP and writes nothing else, an illegal
word written to CMD too. -/
def Obligations.OverlapFirst : Prop :=
  ∀ s : State, s.fault = none → s.phase ≠ .idle →
    (∀ i : Instr, i.cls = .command → exec i s = .next { s with fault := some .overlap }) ∧
    (∀ w : Word, cmdWrite w s = .next { s with fault := some .overlap })

/-! ## Frames -/

/-- R101, R162, R38: a command changes no HOST state, consumes no ENV choice and, but for INIT's BUSINIT, no
event; only INIT writes INITD. -/
def Obligations.CommandFrame : Prop :=
  ∀ (i : Instr) (s t : State), i.cls = .command → exec i s = .next t →
    t.hpc = s.hpc ∧ t.hpcPast = s.hpcPast ∧ t.hmode = s.hmode ∧ t.hret = s.hret ∧ t.prog = s.prog ∧
    t.turns = s.turns ∧
    t.readData = s.readData ∧ t.envInput = s.envInput ∧ t.envCount = s.envCount ∧
    t.pollLimit = s.pollLimit ∧ t.numerics = s.numerics ∧
    (i ≠ .init → t.h = s.h ∧ t.initd = s.initd) ∧
    (i = .init → t.h = s.h ∨ t.h = s.h ++ [.busInit])

/-- R102, R120, R101: an issued transfer leaves the handle, CAUSE, INITD and RXBUF alone; an XW leaves RXVALID and
RXLEN alone, an XR leaves TXBUF alone, and so does an XW that raises a fault. -/
def Obligations.TransferFrame : Prop :=
  (∀ (i : Instr) (s t : State),
    (i ∈ [Instr.xr1, .xr2, .xr3, .xr4, .xr5, .xr6, .readFrame, .sensorReset, .sensorInit, .sensorMeasure] ∨
      (∃ a, i = .xw1 a) ∨ (∃ a b, i = .xw2 a b) ∨ (∃ a b c, i = .xw3 a b c)) →
    exec i s = .next t →
    t.tempX10 = s.tempX10 ∧ t.humX10 = s.humX10 ∧ t.cause = s.cause ∧ t.initd = s.initd ∧ t.rxbuf = s.rxbuf ∧
    t.h = s.h) ∧
  (∀ (i : Instr) (s t : State),
    i ∈ [Instr.xr1, .xr2, .xr3, .xr4, .xr5, .xr6, .readFrame] → exec i s = .next t → t.txbuf = s.txbuf) ∧
  (∀ (i : Instr) (s t : State),
    (i ∈ [Instr.sensorReset, .sensorInit, .sensorMeasure] ∨
      (∃ a, i = .xw1 a) ∨ (∃ a b, i = .xw2 a b) ∨ (∃ a b c, i = .xw3 a b c)) →
    exec i s = .next t →
    t.rxvalid = s.rxvalid ∧ t.rxlen = s.rxlen ∧ (t.fault ≠ none → t.txbuf = s.txbuf))

/-- R103, R141, R149, R150: INIT, DEC and CLR leave the transfer's bookkeeping, both buffers, RXVALID and RXLEN
alone; INIT leaves the handle alone, DEC and CLR leave H and INITD alone. -/
def Obligations.AtomicCommandFrame : Prop :=
  ∀ (i : Instr) (s t : State), i ∈ [Instr.init, .dec, .clr] → exec i s = .next t →
    t.op = s.op ∧ t.n = s.n ∧ t.idx = s.idx ∧ t.cnt = s.cnt ∧ t.txbuf = s.txbuf ∧ t.rxbuf = s.rxbuf ∧
    t.rxvalid = s.rxvalid ∧ t.rxlen = s.rxlen ∧ t.phase = s.phase ∧
    (i = .init → t.tempX10 = s.tempX10 ∧ t.humX10 = s.humX10) ∧
    (i ≠ .init → t.h = s.h ∧ t.initd = s.initd)

/-- R163, R164, R165: the host words change no block state but DELAY's event in H; JF and RET only their own HOST
fields. -/
def Obligations.HostWordFrame : Prop :=
  ∀ (i : Instr) (s t : State), i.cls = .hostWord → exec i s = .next t →
    t.phase = s.phase ∧ t.op = s.op ∧ t.n = s.n ∧ t.idx = s.idx ∧ t.cnt = s.cnt ∧ t.txbuf = s.txbuf ∧
    t.rxbuf = s.rxbuf ∧ t.rxlen = s.rxlen ∧ t.rxvalid = s.rxvalid ∧ t.initd = s.initd ∧ t.okv = s.okv ∧
    t.ok = s.ok ∧ t.tempX10 = s.tempX10 ∧ t.humX10 = s.humX10 ∧ t.cause = s.cause ∧ t.prog = s.prog ∧
    t.turns = s.turns ∧ t.readData = s.readData ∧ t.envInput = s.envInput ∧ t.envCount = s.envCount ∧
    t.pollLimit = s.pollLimit ∧ t.numerics = s.numerics ∧
    ((∀ ms, i ≠ .delay ms) → t.h = s.h) ∧
    (i ∈ [Instr.retFalse, .retTrue, .retVoid] → t.hpc = s.hpc ∧ t.hpcPast = s.hpcPast) ∧
    (i ∉ [Instr.retFalse, .retTrue, .retVoid] → t.hmode = s.hmode ∧ t.hret = s.hret)

/-- R80, R111: a wire address byte changes H, PHASE and CNT and nothing else. -/
def Obligations.AddressByteFrame : Prop :=
  ∀ (i : Instr) (s t : State), i.cls = .wireByte → exec i s = .next t →
    ∃ e, t = { s with h := s.h ++ [e], phase := .wAddr, cnt := 0#14 }

/-! ## XACT's steps -/

/-- R111 with R110: one sample of W_BUSY. The list of turns, taken off by one, with XACT first when none is listed, is
log 7, and ENV's list of choices log 4: the model's choices. -/
def Obligations.BusyWaitStep : Prop :=
  ∀ s : State, s.fault = none → s.XactTurn → s.phase = .wBusy →
    let v := s.sampled .busy
    let u : State :=
      { s with
        turns := s.turns.tail, cnt := s.cnt + 1#14, h := s.h ++ [.poll .busy v],
        envInput := s.envInput.tail, envCount := s.envCount + 1 }
    (v = false → step s =
      .next { u with
        h := u.h ++ [.start, .addr ((0x38#8 <<< 1) ||| (if s.curOp = .xr then 1#8 else 0#8))],
        phase := .wAddr, cnt := 0#14 }) ∧
    (v = true → s.cnt + 1#14 = s.pollLimit → step s =
      .next { u with cause := .busBusyTimeout, phase := .idle, okv := true, ok := false }) ∧
    (v = true → s.cnt + 1#14 ≠ s.pollLimit → step s = .next u)

/-- R112 with R110, R121 and R130: one sample of W_ADDR. The list of turns, taken off by one, with XACT first when none
is listed, is log 7, and ENV's list of choices log 4: the model's choices. -/
def Obligations.AddressWaitStep : Prop :=
  ∀ s : State, s.fault = none → s.XactTurn → s.phase = .wAddr →
    let v := s.sampled .addrAck
    let u : State :=
      { s with
        turns := s.turns.tail, cnt := s.cnt + 1#14, h := s.h ++ [.poll .addrAck v],
        envInput := s.envInput.tail, envCount := s.envCount + 1 }
    (v = true → s.curOp = .xw → step s =
      .next { u with idx := some 0#3, h := u.h ++ [.tx (s.txByte 0)], phase := .wBtf, cnt := 0#14 }) ∧
    (v = true → s.curOp = .xr → step s =
      .next { u with
        idx := some 0#3, h := u.h ++ [if s.curN = 1 then .nack else .ack], phase := .wRxne, cnt := 0#14 }) ∧
    (v = false → s.cnt + 1#14 = s.pollLimit → step s =
      .next { u with
        h := u.h ++ (if u.nextBit .draw then [.stop] else []), envInput := u.envInput.tail,
        envCount := u.envCount + 1, cause := .addrTimeout, phase := .idle, okv := true, ok := false }) ∧
    (v = false → s.cnt + 1#14 ≠ s.pollLimit → step s = .next u)

/-- R115 with R110 and R130: one sample of W_BTF. The list of turns, taken off by one, with XACT first when none is
listed, is log 7, and ENV's list of choices log 4: the model's choices. -/
def Obligations.TransmitWaitStep : Prop :=
  ∀ s : State, s.fault = none → s.XactTurn → s.phase = .wBtf →
    let v := s.sampled .btf
    let u : State :=
      { s with
        turns := s.turns.tail, cnt := s.cnt + 1#14, h := s.h ++ [.poll .btf v],
        envInput := s.envInput.tail, envCount := s.envCount + 1 }
    (v = true → s.curIdx.toNat + 1 < s.curN → step s =
      .next { u with
        idx := some (s.curIdx + 1#3), h := u.h ++ [.tx (s.txByte (s.curIdx.toNat + 1))], cnt := 0#14 }) ∧
    (v = true → s.curIdx.toNat + 1 = s.curN → step s =
      .next { u with h := u.h ++ [.stop], cause := .none, phase := .idle, okv := true, ok := true }) ∧
    (v = false → s.cnt + 1#14 = s.pollLimit → step s =
      .next { u with
        h := u.h ++ (if u.nextBit .draw then [.stop] else []), envInput := u.envInput.tail,
        envCount := u.envCount + 1, cause := .btfTimeout, phase := .idle, okv := true, ok := false }) ∧
    (v = false → s.cnt + 1#14 ≠ s.pollLimit → step s = .next u)

/-- R122 with R110, R121 and R130: one sample of W_RXNE. That an IDX of 6 or 7 stores nothing is log 17; the list of
turns, taken off by one, with XACT first when none is listed, is log 7, and ENV's list of choices log 4: the model's
choices. -/
def Obligations.ReceiveWaitStep : Prop :=
  ∀ s : State, s.fault = none → s.XactTurn → s.phase = .wRxne →
    let v := s.sampled .rxne
    let u : State :=
      { s with
        turns := s.turns.tail, cnt := s.cnt + 1#14, h := s.h ++ [.poll .rxne v],
        envInput := s.envInput.tail, envCount := s.envCount + 1 }
    let b := u.nextChoice .rxData
    let w : State :=
      { u with
        rxbuf := s.rxbuf.setIfInBounds s.curIdx.toNat (some b), h := u.h ++ [.rx b],
        envInput := u.envInput.tail, envCount := u.envCount + 1 }
    (v = true → s.curIdx.toNat + 1 < s.curN → step s =
      .next { w with
        idx := some (s.curIdx + 1#3),
        h := w.h ++ [if s.curIdx.toNat + 2 = s.curN then .nack else .ack], cnt := 0#14 }) ∧
    (v = true → ¬ s.curIdx.toNat + 1 < s.curN → step s =
      .next { w with
        h := w.h ++ [.stop], rxvalid := true, cause := .none, phase := .idle, okv := true, ok := true }) ∧
    (v = false → s.cnt + 1#14 = s.pollLimit → step s =
      .next { u with
        h := u.h ++ (if u.nextBit .draw then [.stop] else []), envInput := u.envInput.tail,
        envCount := u.envCount + 1, cause := .rxneTimeout, phase := .idle, okv := true, ok := false }) ∧
    (v = false → s.cnt + 1#14 ≠ s.pollLimit → step s = .next u)

/-- R130: after the timeout of a wait that follows START both draws are possible runs: STOP or no STOP; RXVALID,
TXBUF, RXBUF and the handle are not written. How ENV answers (a listed byte, of which bit 0 is read) is the model's
choice (log 4), and so is the list of turns (log 7). -/
def Obligations.AbortDrawsFreely : Prop :=
  ∀ (s : State) (p : Phase) (f : Flag) (c : Cause) (d : Bool) (rest : List Byte),
    s.fault = none → s.XactTurn → s.phase = p → s.cnt + 1#14 = s.pollLimit →
    (p, f, c) ∈ [(Phase.wAddr, Flag.addrAck, Cause.addrTimeout), (.wBtf, .btf, .btfTimeout),
      (.wRxne, .rxne, .rxneTimeout)] →
    s.envInput = 0x00#8 :: (if d then 0x01#8 else 0x00#8) :: rest →
    step s =
      .next { s with
        turns := s.turns.tail, cnt := s.cnt + 1#14, envInput := rest, envCount := s.envCount + 2,
        h := s.h ++ [.poll f false] ++ (if d then [.stop] else []),
        cause := c, phase := .idle, okv := true, ok := false }

/-- R204: no XACT step raises a fault, whatever ENV answers, and XACT always has its step while a command
runs. -/
def Obligations.TransactorNeverFaults : Prop :=
  (∀ s t : State, xactStep s = .next t → t.fault = s.fault) ∧
  (∀ s : State, s.fault = none → s.phase ≠ .idle → ∃ t, xactStep s = .next t)

/-- R131: from any state the invariant admits, a running transaction finishes within its budget of XACT steps,
which at the start of its bus-busy wait is POLL_LIMIT * (N + 2). -/
def Obligations.BoundedCompletion : Prop :=
  (∀ s : State, s.Inv → s.fault = none → s.phase ≠ .idle →
    ∃ t, xactRun s.budget s = .next t ∧ t.phase = .idle ∧ t.okv = true) ∧
  (∀ s : State, s.phase = .wBusy → s.cnt = 0#14 → s.budget = s.pollLimit.toNat * (s.curN + 2))

/-- R88, R132 for XW: success puts the complete shape on the wire, failure a proper prefix of it, which may be
followed by one STOP and is empty after a bus-busy timeout. -/
def Obligations.WriteWireShape : Prop :=
  ∀ (s t : State) (k : Nat), s.Inv → s.fault = none → s.phase = .wBusy → s.op = some .xw →
    xactRun k s = .next t → t.phase = .idle →
    let shape := xwShape ((List.range s.curN).map s.txByte)
    (t.ok = true → wire t.h = wire s.h ++ shape) ∧
    (t.ok = false → ∃ p, p <+: shape ∧ p ≠ shape ∧
      (wire t.h = wire s.h ++ p ∨ (p ≠ [] ∧ wire t.h = wire s.h ++ p ++ [.stop])) ∧
      (t.cause = .busBusyTimeout → wire t.h = wire s.h))

/-- R88, R132 for XR: success puts the complete shape of the captured bytes on the wire and leaves them in RXBUF
with RXVALID = 1; failure a proper prefix of such a shape, and RXVALID = 0. -/
def Obligations.ReadWireShape : Prop :=
  ∀ (s t : State) (k : Nat), s.Inv → s.fault = none → s.phase = .wBusy → s.op = some .xr →
    xactRun k s = .next t → t.phase = .idle →
    (t.ok = true → t.rxvalid = true ∧ t.rxlen.toNat = s.curN ∧
      wire t.h = wire s.h ++ xrShape ((List.range s.curN).map t.rxByte)) ∧
    (t.ok = false → t.rxvalid = false ∧ ∃ (bs : List Byte) (p : List Event), bs.length = s.curN ∧
      p <+: xrShape bs ∧ p ≠ xrShape bs ∧
      (wire t.h = wire s.h ++ p ∨ (p ≠ [] ∧ wire t.h = wire s.h ++ p ++ [.stop])) ∧
      (t.cause = .busBusyTimeout → wire t.h = wire s.h))

/-- R201, R202, R203: a transaction that fails leaves INITD, TXBUF and the handle alone, shows only as OK = 0 with
OKV = 1 in STATUS, and names its cause in CAUSE. -/
def Obligations.FailedTransactionFrame : Prop :=
  ∀ s t : State, step s = .next t → s.phase ≠ .idle → t.phase = .idle → t.ok = false →
    t.okv = true ∧ t.initd = s.initd ∧ t.txbuf = s.txbuf ∧ t.rxbuf = s.rxbuf ∧ t.rxvalid = s.rxvalid ∧
    t.tempX10 = s.tempX10 ∧ t.humX10 = s.humX10 ∧ t.fault = none ∧
    t.cause ∈ [Cause.busBusyTimeout, .addrTimeout, .btfTimeout, .rxneTimeout]

/-! ## The decoder -/

/-- R85: the raw fields of a frame are the source's shift formulas, and both are below 2^20. -/
def Obligations.RawFieldAssembly : Prop :=
  ∀ f : Frame,
    f.humRaw.toNat = ((f[1].toNat <<< 16) ||| (f[2].toNat <<< 8) ||| f[3].toNat) >>> 4 ∧
    f.humRaw.toNat = (f[1].toNat <<< 12) ||| (f[2].toNat <<< 4) ||| (f[3].toNat >>> 4) ∧
    f.tempRaw.toNat = ((f[3].toNat &&& 0x0F) <<< 16) ||| (f[4].toNat <<< 8) ||| f[5].toNat ∧
    f.humRaw.toNat < 2 ^ 20 ∧ f.tempRaw.toNat < 2 ^ 20

/-- R145: humidity under EXACT is floor(r * 1000 / 2^20), at least 0 and at most 999, and both ends are met. -/
def Obligations.HumidityExact : Prop :=
  (∀ r : BitVec 20,
    humX10 .exact r = Int.tdiv ((r.toNat : Int) * 1000) (2 ^ 20) ∧
    humX10 .exact r = ((r.toNat * 1000) >>> 20 : Nat) ∧
    humX10 .exact r = ⌊((r.toNat : ℚ) * 1000) / 2 ^ 20⌋ ∧
    0 ≤ humX10 .exact r ∧ humX10 .exact r ≤ 999) ∧
  humX10 .exact 0#20 = 0 ∧ humX10 .exact 0xFFFFF#20 = 999

/-- R146: temperature under EXACT is r * 2000 / 2^20 - 500 truncated toward zero, at least -500 and at most 1499.
That "truncated" means toward zero is a reading the spec marks as its own (93_implementation_defined.md G5). -/
def Obligations.TemperatureExact : Prop :=
  (∀ r : BitVec 20,
    let q : ℚ := ((r.toNat : ℚ) * 2000) / 2 ^ 20 - 500
    tempX10 .exact r = (if 0 ≤ q then ⌊q⌋ else ⌈q⌉) ∧
    -500 ≤ tempX10 .exact r ∧ tempX10 .exact r ≤ 1499) ∧
  (∀ r : BitVec 20, 261620 ≤ r.toNat → r.toNat ≤ 262144 → tempX10 .exact r = 0) ∧
  tempX10 .exact 0#20 = -500 ∧ tempX10 .exact 1#20 = -499 ∧ tempX10 .exact 16384#20 = -468 ∧
  tempX10 .exact 0xFFFFF#20 = 1499

/-- R147, R144: under both settings of DECODE_NUMERICS the results lie in the same ranges and the 16-bit store
never wraps; the two settings differ at the raw values the spec names. binary32 rounding is general knowledge the
spec marks as such (93_implementation_defined.md G4). -/
def Obligations.StoreNeverWraps : Prop :=
  (∀ (m : DecodeNumerics) (r : BitVec 20),
    0 ≤ humX10 m r ∧ humX10 m r ≤ 999 ∧ -500 ≤ tempX10 m r ∧ tempX10 m r ≤ 1499 ∧
    (store16 (humX10 m r)).toInt = humX10 m r ∧ (store16 (tempX10 m r)).toInt = tempX10 m r) ∧
  humX10 .exact 165675#20 = 157 ∧ humX10 .binary32 165675#20 = 158 ∧
  tempX10 .exact 30933#20 = -440 ∧ tempX10 .binary32 30933#20 = -441

/-- R152: enc and hum_x10 round-trip, and which raw values decode to h. -/
def Obligations.HumidityRoundTrip : Prop :=
  (∀ h : Nat, h ≤ 999 → encHum h < 2 ^ 20 ∧ humX10 .exact (BitVec.ofNat 20 (encHum h)) = h) ∧
  (∀ (r : BitVec 20) (h : Nat),
    humX10 .exact r = h ↔ h * 2 ^ 20 ≤ r.toNat * 1000 ∧ r.toNat * 1000 < (h + 1) * 2 ^ 20)

/-- R148, R84: the decoder does not read f[0][6:0]. -/
def Obligations.StatusBitsIgnored : Prop :=
  ∀ (m : DecodeNumerics) (f g : Frame), f[0].getLsbD 7 = g[0].getLsbD 7 → f[1] = g[1] → f[2] = g[2] →
    f[3] = g[3] → f[4] = g[4] → f[5] = g[5] → decodeFrame m f = decodeFrame m g

/-! ## The HOST's register accesses and sequence -/

/-- R23: the fields of STATUS, its reserved bits, and the invariant OKV = 0 -> OK = 0. -/
def Obligations.StatusLayout : Prop :=
  (∀ s : State, s.status.getLsbD 0 = decide (s.phase = .idle) ∧ s.status.getLsbD 1 = s.okv ∧
    s.status.getLsbD 2 = s.ok ∧ s.status.getLsbD 3 = s.initd ∧ ∀ i, 4 ≤ i → s.status.getLsbD i = false) ∧
  (∀ s : State, s.Inv → s.okv = false → s.ok = false)

/-- R26: which register accesses return a value, with no effect on the block and in any PHASE, and which raise
BAD_ACCESS. That the value is kept in readData is log 10, the list of turns log 7, an access in every HMODE log 19:
the model's choices. -/
def Obligations.RegisterAccess : Prop :=
  ∀ (s : State) (r : BitVec 8) (w : Word) (rest : List Turn), s.fault = none →
    (s.turns = .read r :: rest →
      (r = 0x1#8 → step s = .next { s with turns := rest, readData := some s.status }) ∧
      (r = 0x2#8 → step s = .next { s with turns := rest, readData := some (s.tempX10.signExtend 32) }) ∧
      (r = 0x3#8 → step s = .next { s with turns := rest, readData := some (s.humX10.signExtend 32) }) ∧
      (r ≠ 0x1#8 → r ≠ 0x2#8 → r ≠ 0x3#8 → step s = .next { s with fault := some .badAccess })) ∧
    (s.turns = .write r w :: rest →
      r ≠ 0x0#8 → step s = .next { s with fault := some .badAccess })

/-- R101, R22, R77, R207: a HOST write of any word to CMD: OVERLAP while a transaction runs, ILLEGAL_CMD for an illegal
word, else the command the word decodes to. The turn is off the list unless a fault was raised (log 7), and the write
may come in every HMODE (log 19): the model's choices. -/
def Obligations.CommandRegisterWrite : Prop :=
  ∀ (s : State) (w : Word) (rest : List Turn), s.fault = none → s.turns = .write 0x0#8 w :: rest →
    (s.phase ≠ .idle → step s = .next { s with fault := some .overlap }) ∧
    (s.phase = .idle → IllegalCommand w → step s = .next { s with fault := some .illegalCmd }) ∧
    (s.phase = .idle → ¬ IllegalCommand w →
      ∃ i t, decodeWord w = .ok i ∧ i.cls = .command ∧ exec i s = .next t ∧
        (t.fault = none → step s = .next { t with turns := rest }) ∧ (t.fault ≠ none → step s = .next t))

/-- R161, R162, R163 to R165: a step of the HOST's sequence runs the instruction its word decodes to; after the issue
of a block command that raised no fault HMODE is WAIT (R162, step 1). A turn that was taken is off the list (log 7). -/
def Obligations.StepRunsHostWord : Prop :=
  ∀ (s : State) (w : Word) (i : Instr), s.fault = none → s.HostTurn → s.hmode = .run →
    s.hpcPast = false → s.prog[s.hpc.toNat]? = some w → decodeWord w = .ok i →
    (i.cls = .command → ∃ t, exec i s = .next t ∧
      (t.fault = none → step s = .next { t with hmode := .wait, turns := s.turns.tail }) ∧
      (t.fault ≠ none → step s = .next t)) ∧
    (i.cls = .hostWord → ∃ t, exec i s = .next t ∧
      (t.fault = none → step s = .next { t with turns := s.turns.tail }) ∧ (t.fault ≠ none → step s = .next t))

/-- R111, R80: XACT's step that meets the bus-busy wait runs the wire address byte of the transfer's direction, on
the state after the sample and START. That the byte is an instruction is the model's choice (log 2), and so are the
list of turns, taken off by one, and XACT moving first when none is listed (log 7). -/
def Obligations.StepRunsAddressByte : Prop :=
  ∀ s : State, s.fault = none → s.XactTurn → s.phase = .wBusy → s.sampled .busy = false →
    let u := { s.afterSample .busy with cnt := s.cnt + 1#14 }.emit .start
    (s.curOp = .xw → step s = thenTurns s.turns.tail (exec .addrW u)) ∧
    (s.curOp = .xr → step s = thenTurns s.turns.tail (exec .addrR u))

/-- R161, R162, R78, R28, R167: a HOST fetch by OP: a block command is issued and the HOST waits, DELAY, JF and RET are
the HOST's own, every other word and a fetch past the end fault; a HALTed HOST has no step. That the machine then has
none, with XACT idle and no access listed, and answers noStep is log 14 with the list of turns of log 7. -/
def Obligations.HostFetchByOp : Prop :=
  ∀ s : State, s.fault = none → s.HostTurn →
    (s.hmode = .run → s.hpcPast = true ∨ s.prog.length ≤ s.hpc.toNat → step s = .next { s with fault := some .hPcEnd }) ∧
    (∀ w, s.hmode = .run → s.hpcPast = false → s.prog[s.hpc.toNat]? = some w →
      (1 ≤ (opField w).toNat → (opField w).toNat ≤ 5 → ∃ t, cmdWrite w s = .next t ∧
        (t.fault = none → step s = .next { t with hmode := .wait, turns := s.turns.tail }) ∧
        (t.fault ≠ none → step s = .next t)) ∧
      ((opField w).toNat = 8 ∨ (opField w).toNat = 9 ∨ (opField w).toNat = 10 →
        (IllegalHostWord w → step s = .next { s with fault := some .hIllegal }) ∧
        (¬ IllegalHostWord w → ∃ i t, decodeWord w = .ok i ∧ i.cls = .hostWord ∧ exec i s = .next t ∧
          (t.fault = none → step s = .next { t with turns := s.turns.tail }) ∧
          (t.fault ≠ none → step s = .next t))) ∧
      ((opField w).toNat = 0 ∨ (opField w).toNat = 6 ∨ (opField w).toNat = 7 ∨ 11 ≤ (opField w).toNat →
        step s = .next { s with fault := some .hIllegal })) ∧
    (s.hmode = .halt → s.seqEnabled = false ∧ seqStep s = .refused .noStep ∧
      (s.phase = .idle → s.turns.tail = [] → step s = .refused .noStep))

/-- R162, step 2: the wait is enabled only when STATUS.IDLE = 1; its step ends it, and the HOST goes on with the next
word. While XACT runs the waiting HOST has no step, listed or not, and XACT takes its own. That the HOST then answers
noStep is log 14; that a listed turn of its is passed over, and who moves when no turn is listed, log 7; that HPC does
not wrap after index 0xFFFF, log 6: the model's choices. -/
def Obligations.WaitEndsWhenIdle : Prop :=
  ∀ s : State, s.fault = none → s.hmode = .wait →
    (s.HostTurn → s.phase = .idle →
      step s = .next { s with
        turns := s.turns.tail, hmode := .run, hpc := s.hpc + 1#16, hpcPast := s.hpcPast || s.hpc == 0xFFFF#16 }) ∧
    (s.phase ≠ .idle → s.seqEnabled = false ∧ seqStep s = .refused .noStep) ∧
    (s.turns = [] ∨ s.turns = [.seq] → s.phase ≠ .idle →
      ∃ t, xactStep s = .next t ∧ step s = .next { t with turns := [] })

/-! ## The whole machine -/

/-- R205, R209: a step that raises a fault writes nothing but FAULT; from then on no agent has a step, and the
state is not final. -/
def Obligations.FaultsStopPrecisely : Prop :=
  (∀ (s t : State) (c : FaultCode), step s = .next t → t.fault = some c →
    s.fault = none ∧ t = { s with fault := some c }) ∧
  (∀ (i : Instr) (s t : State) (c : FaultCode), exec i s = .next t → t.fault = some c →
    t = { s with fault := some c }) ∧
  (∀ (s : State) (c : FaultCode), s.fault = some c →
    step s = .fault (.stopped c) ∧ (∀ i, exec i s = .fault (.stopped c)) ∧ ¬ s.Final)

/-- R167, R205, R161, R162, R28: while FAULT is none the machine has a step unless the state is final; no instruction is
refused. That a final state's step answers noStep is log 14; a register access listed there is still a step (log 7,
log 19). -/
def Obligations.ProgressUntilFinal : Prop :=
  (∀ s : State, s.fault = none → (∃ t, step s = .next t) ∨ (s.Final ∧ step s = .refused .noStep)) ∧
  (∀ (i : Instr) (s : State), s.fault = none → ∃ t, exec i s = .next t)

/-- R34: only a DEC that finishes with OK = 1 and a CLR write the handle, and both write both fields; a failing DEC
leaves it alone. -/
def Obligations.HandleWriters : Prop :=
  (∀ s t : State, step s = .next t →
    (t.tempX10 = s.tempX10 ∧ t.humX10 = s.humX10) ∨
    (t.okv = true ∧ t.ok = true ∧ ∃ w, s.MayIssue w ∧
      ((decodeWord w = .ok .clr ∧ t.tempX10 = 0#16 ∧ t.humX10 = 0#16) ∨
       (decodeWord w = .ok .dec ∧ s.rxvalid = true ∧ s.rxlen = 6#3 ∧ s.rxFrame.busy = false ∧
        t.tempX10 = store16 (tempX10 s.numerics s.rxFrame.tempRaw) ∧
        t.humX10 = store16 (humX10 s.numerics s.rxFrame.humRaw))))) ∧
  (∀ s t : State, exec .dec s = .next t → t.fault = none →
    (t.ok = true ∧ t.tempX10 = store16 (tempX10 s.numerics s.rxFrame.tempRaw) ∧
      t.humX10 = store16 (humX10 s.numerics s.rxFrame.humRaw)) ∨
    (t.ok = false ∧ t.tempX10 = s.tempX10 ∧ t.humX10 = s.humX10)) ∧
  (∀ s t : State, exec .clr s = .next t → t.fault = none → t.tempX10 = 0#16 ∧ t.humX10 = 0#16)

/-- R31: the model appends to H and never removes from it; while no transaction runs, no wire event is
appended. -/
def Obligations.HistoryGrows : Prop :=
  ∀ s t : State, step s = .next t → s.h <+: t.h ∧ (s.phase = .idle → wire t.h = wire s.h)

/-- R38, R160, R165, R6: no step writes PROG or a parameter (log 20), and HRET changes only by a RET word, which halts
the HOST. -/
def Obligations.ProgramAndReturnValue : Prop :=
  ∀ s t : State, step s = .next t →
    t.prog = s.prog ∧ t.pollLimit = s.pollLimit ∧ t.numerics = s.numerics ∧
    (t.hret ≠ s.hret → t.hmode = .halt ∧ s.hmode = .run ∧ ∃ w,
      s.hpcPast = false ∧ s.prog[s.hpc.toNat]? = some w ∧
      (decodeWord w = .ok .retFalse ∨ decodeWord w = .ok .retTrue ∨ decodeWord w = .ok .retVoid))

/-- R134, R26, R31: while a transaction runs, a HOST step leaves it alone or faults: nothing cancels it, and
all a HOST step adds to H is one DELAY. -/
def Obligations.NoCancellation : Prop :=
  ∀ s t : State, s.phase ≠ .idle →
    (seqStep s = .next t ∨ (∃ r, regRead r s = .next t) ∨ (∃ r w, regWrite r w s = .next t)) →
    t.fault ≠ none ∨
    (t.phase = s.phase ∧ t.op = s.op ∧ t.n = s.n ∧ t.idx = s.idx ∧ t.cnt = s.cnt ∧ t.txbuf = s.txbuf ∧
     t.rxbuf = s.rxbuf ∧ t.rxlen = s.rxlen ∧ t.rxvalid = s.rxvalid ∧ t.initd = s.initd ∧ t.okv = s.okv ∧
     t.ok = s.ok ∧ t.tempX10 = s.tempX10 ∧ t.humX10 = s.humX10 ∧ t.cause = s.cause ∧
     t.envInput = s.envInput ∧ t.envCount = s.envCount ∧ (t.h = s.h ∨ ∃ ms, t.h = s.h ++ [.delay ms]))

/-- R202, R30: CAUSE is ghost state: two states that differ only in CAUSE step alike, and the HOST observes the
same of both. -/
def Obligations.CauseIsHidden : Prop :=
  ∀ (s : State) (c : Cause),
    match step s, step { s with cause := c } with
    | .next t, .next u => { t with cause := .none } = { u with cause := .none } ∧ t.observe = u.observe
    | .fault a, .fault b => a = b
    | .refused a, .refused b => a = b
    | _, _ => False

/-- R39, R29, R23, R24, R25, R30, R38: the machine's invariant (State.Inv: a running transfer's bookkeeping holds
values and its bytes are written, CNT is bounded, OKV = 0 -> OK = 0, CAUSE matches OK, the handle is in range, the
HOST's index and return value are sound) is kept by every step. -/
def Obligations.StepKeepsInvariant : Prop :=
  ∀ s t : State, s.Inv → step s = .next t → t.Inv

/-- R39, R20: the invariant holds at reset. -/
def Obligations.ResetMeetsInvariant : Prop :=
  State.reset.Inv

/-- R39, R113, R141: in a state the invariant admits, what the steps read of the buffers and of OP, N and IDX was
written, and it is what stands there: the byte the steps take for TXBUF[j] or RXBUF[j] is that byte, and a valid frame
is RXBUF[0..5] in order. -/
def Obligations.OnlyWrittenBytesRead : Prop :=
  ∀ s : State, s.Inv →
    (s.phase ≠ .idle → s.op = some s.curOp ∧ (∃ n, s.n = some n ∧ n.toNat = s.curN) ∧ s.idx = some s.curIdx) ∧
    (s.phase ≠ .idle → s.op = some .xw → ∀ j, j < s.curN → s.txbuf[j]? = some (some (s.txByte j))) ∧
    (s.phase = .wRxne → s.curIdx.toNat < s.curN ∧ s.curN ≤ 6) ∧
    (s.phase = .wRxne → ∀ j, j < s.curIdx.toNat → s.rxbuf[j]? = some (some (s.rxByte j))) ∧
    (s.rxvalid = true → ∀ j, j < s.rxlen.toNat → s.rxbuf[j]? = some (some (s.rxByte j))) ∧
    (s.rxvalid = true → s.rxlen = 6#3 →
      ∀ (j : Nat) (hj : j < 6), s.rxbuf[j] = some s.rxFrame[j] ∧ s.rxFrame[j] = s.rxByte j)

/-- R230, R20, R231, R236: the values the spec gives for reset, the host-visible ones as read, and CleanLaunch, with
R6's values of the two parameters the state holds (log 11, log 12, log 20). The HOST's PROG and the model's own fields at reset are the model's choice (log 9, log 15) and stand in no clause. -/
def Obligations.ResetValues : Prop :=
  State.reset.phase = .idle ∧ State.reset.cnt = 0#14 ∧ State.reset.rxlen = 0#3 ∧ State.reset.rxvalid = false ∧
  State.reset.initd = false ∧ State.reset.okv = false ∧ State.reset.ok = false ∧
  State.reset.tempX10 = 0#16 ∧ State.reset.humX10 = 0#16 ∧ State.reset.cause = .none ∧ State.reset.h = [] ∧
  State.reset.pollLimit = 10000#14 ∧ State.reset.numerics = .exact ∧
  State.reset.fault = none ∧ State.reset.op = none ∧ State.reset.n = none ∧ State.reset.idx = none ∧
  (∀ i, i < 3 → State.reset.txbuf[i]? = some none) ∧ (∀ i, i < 6 → State.reset.rxbuf[i]? = some none) ∧
  State.reset.readReg 0x1#8 = some 0x00000001#32 ∧ State.reset.readReg 0x2#8 = some 0x00000000#32 ∧
  State.reset.readReg 0x3#8 = some 0x00000000#32 ∧ State.reset.CleanLaunch
end

