-- ==== Sys2Proof/Laws/State.lean ====
section
/-! SUPPORT. One lemma per field per named update of State, so that no later proof unfolds one. -/

namespace Sys2Proof.Machine

@[simp] theorem State.emit_phase (e : Event) (s : State) : (s.emit e).phase = s.phase := rfl
@[simp] theorem State.emit_op (e : Event) (s : State) : (s.emit e).op = s.op := rfl
@[simp] theorem State.emit_n (e : Event) (s : State) : (s.emit e).n = s.n := rfl
@[simp] theorem State.emit_idx (e : Event) (s : State) : (s.emit e).idx = s.idx := rfl
@[simp] theorem State.emit_cnt (e : Event) (s : State) : (s.emit e).cnt = s.cnt := rfl
@[simp] theorem State.emit_txbuf (e : Event) (s : State) : (s.emit e).txbuf = s.txbuf := rfl
@[simp] theorem State.emit_rxbuf (e : Event) (s : State) : (s.emit e).rxbuf = s.rxbuf := rfl
@[simp] theorem State.emit_rxlen (e : Event) (s : State) : (s.emit e).rxlen = s.rxlen := rfl
@[simp] theorem State.emit_rxvalid (e : Event) (s : State) : (s.emit e).rxvalid = s.rxvalid := rfl
@[simp] theorem State.emit_initd (e : Event) (s : State) : (s.emit e).initd = s.initd := rfl
@[simp] theorem State.emit_okv (e : Event) (s : State) : (s.emit e).okv = s.okv := rfl
@[simp] theorem State.emit_ok (e : Event) (s : State) : (s.emit e).ok = s.ok := rfl
@[simp] theorem State.emit_tempX10 (e : Event) (s : State) : (s.emit e).tempX10 = s.tempX10 := rfl
@[simp] theorem State.emit_humX10 (e : Event) (s : State) : (s.emit e).humX10 = s.humX10 := rfl
@[simp] theorem State.emit_cause (e : Event) (s : State) : (s.emit e).cause = s.cause := rfl
@[simp] theorem State.emit_h (e : Event) (s : State) : (s.emit e).h = s.h ++ [e] := rfl
@[simp] theorem State.emit_fault (e : Event) (s : State) : (s.emit e).fault = s.fault := rfl
@[simp] theorem State.emit_hpc (e : Event) (s : State) : (s.emit e).hpc = s.hpc := rfl
@[simp] theorem State.emit_hpcPast (e : Event) (s : State) : (s.emit e).hpcPast = s.hpcPast := rfl
@[simp] theorem State.emit_hmode (e : Event) (s : State) : (s.emit e).hmode = s.hmode := rfl
@[simp] theorem State.emit_hret (e : Event) (s : State) : (s.emit e).hret = s.hret := rfl
@[simp] theorem State.emit_prog (e : Event) (s : State) : (s.emit e).prog = s.prog := rfl
@[simp] theorem State.emit_pollLimit (e : Event) (s : State) : (s.emit e).pollLimit = s.pollLimit := rfl
@[simp] theorem State.emit_numerics (e : Event) (s : State) : (s.emit e).numerics = s.numerics := rfl
@[simp] theorem State.emit_turns (e : Event) (s : State) : (s.emit e).turns = s.turns := rfl
@[simp] theorem State.emit_readData (e : Event) (s : State) : (s.emit e).readData = s.readData := rfl
@[simp] theorem State.emit_envInput (e : Event) (s : State) : (s.emit e).envInput = s.envInput := rfl
@[simp] theorem State.emit_envCount (e : Event) (s : State) : (s.emit e).envCount = s.envCount := rfl

@[simp] theorem State.afterChoice_phase (s : State) : s.afterChoice.phase = s.phase := rfl
@[simp] theorem State.afterChoice_op (s : State) : s.afterChoice.op = s.op := rfl
@[simp] theorem State.afterChoice_n (s : State) : s.afterChoice.n = s.n := rfl
@[simp] theorem State.afterChoice_idx (s : State) : s.afterChoice.idx = s.idx := rfl
@[simp] theorem State.afterChoice_cnt (s : State) : s.afterChoice.cnt = s.cnt := rfl
@[simp] theorem State.afterChoice_txbuf (s : State) : s.afterChoice.txbuf = s.txbuf := rfl
@[simp] theorem State.afterChoice_rxbuf (s : State) : s.afterChoice.rxbuf = s.rxbuf := rfl
@[simp] theorem State.afterChoice_rxlen (s : State) : s.afterChoice.rxlen = s.rxlen := rfl
@[simp] theorem State.afterChoice_rxvalid (s : State) : s.afterChoice.rxvalid = s.rxvalid := rfl
@[simp] theorem State.afterChoice_initd (s : State) : s.afterChoice.initd = s.initd := rfl
@[simp] theorem State.afterChoice_okv (s : State) : s.afterChoice.okv = s.okv := rfl
@[simp] theorem State.afterChoice_ok (s : State) : s.afterChoice.ok = s.ok := rfl
@[simp] theorem State.afterChoice_tempX10 (s : State) : s.afterChoice.tempX10 = s.tempX10 := rfl
@[simp] theorem State.afterChoice_humX10 (s : State) : s.afterChoice.humX10 = s.humX10 := rfl
@[simp] theorem State.afterChoice_cause (s : State) : s.afterChoice.cause = s.cause := rfl
@[simp] theorem State.afterChoice_h (s : State) : s.afterChoice.h = s.h := rfl
@[simp] theorem State.afterChoice_fault (s : State) : s.afterChoice.fault = s.fault := rfl
@[simp] theorem State.afterChoice_hpc (s : State) : s.afterChoice.hpc = s.hpc := rfl
@[simp] theorem State.afterChoice_hpcPast (s : State) : s.afterChoice.hpcPast = s.hpcPast := rfl
@[simp] theorem State.afterChoice_hmode (s : State) : s.afterChoice.hmode = s.hmode := rfl
@[simp] theorem State.afterChoice_hret (s : State) : s.afterChoice.hret = s.hret := rfl
@[simp] theorem State.afterChoice_prog (s : State) : s.afterChoice.prog = s.prog := rfl
@[simp] theorem State.afterChoice_pollLimit (s : State) : s.afterChoice.pollLimit = s.pollLimit := rfl
@[simp] theorem State.afterChoice_numerics (s : State) : s.afterChoice.numerics = s.numerics := rfl
@[simp] theorem State.afterChoice_turns (s : State) : s.afterChoice.turns = s.turns := rfl
@[simp] theorem State.afterChoice_readData (s : State) : s.afterChoice.readData = s.readData := rfl
@[simp] theorem State.afterChoice_envInput (s : State) : s.afterChoice.envInput = s.envInput.tail := rfl
@[simp] theorem State.afterChoice_envCount (s : State) : s.afterChoice.envCount = s.envCount + 1 := rfl

@[simp] theorem State.afterSample_phase (f : Flag) (s : State) : (s.afterSample f).phase = s.phase := rfl
@[simp] theorem State.afterSample_op (f : Flag) (s : State) : (s.afterSample f).op = s.op := rfl
@[simp] theorem State.afterSample_n (f : Flag) (s : State) : (s.afterSample f).n = s.n := rfl
@[simp] theorem State.afterSample_idx (f : Flag) (s : State) : (s.afterSample f).idx = s.idx := rfl
@[simp] theorem State.afterSample_cnt (f : Flag) (s : State) : (s.afterSample f).cnt = s.cnt := rfl
@[simp] theorem State.afterSample_txbuf (f : Flag) (s : State) : (s.afterSample f).txbuf = s.txbuf := rfl
@[simp] theorem State.afterSample_rxbuf (f : Flag) (s : State) : (s.afterSample f).rxbuf = s.rxbuf := rfl
@[simp] theorem State.afterSample_rxlen (f : Flag) (s : State) : (s.afterSample f).rxlen = s.rxlen := rfl
@[simp] theorem State.afterSample_rxvalid (f : Flag) (s : State) : (s.afterSample f).rxvalid = s.rxvalid := rfl
@[simp] theorem State.afterSample_initd (f : Flag) (s : State) : (s.afterSample f).initd = s.initd := rfl
@[simp] theorem State.afterSample_okv (f : Flag) (s : State) : (s.afterSample f).okv = s.okv := rfl
@[simp] theorem State.afterSample_ok (f : Flag) (s : State) : (s.afterSample f).ok = s.ok := rfl
@[simp] theorem State.afterSample_tempX10 (f : Flag) (s : State) : (s.afterSample f).tempX10 = s.tempX10 := rfl
@[simp] theorem State.afterSample_humX10 (f : Flag) (s : State) : (s.afterSample f).humX10 = s.humX10 := rfl
@[simp] theorem State.afterSample_cause (f : Flag) (s : State) : (s.afterSample f).cause = s.cause := rfl
@[simp] theorem State.afterSample_h (f : Flag) (s : State) : (s.afterSample f).h = s.h ++ [.poll f (s.sampled f)] := rfl
@[simp] theorem State.afterSample_fault (f : Flag) (s : State) : (s.afterSample f).fault = s.fault := rfl
@[simp] theorem State.afterSample_hpc (f : Flag) (s : State) : (s.afterSample f).hpc = s.hpc := rfl
@[simp] theorem State.afterSample_hpcPast (f : Flag) (s : State) : (s.afterSample f).hpcPast = s.hpcPast := rfl
@[simp] theorem State.afterSample_hmode (f : Flag) (s : State) : (s.afterSample f).hmode = s.hmode := rfl
@[simp] theorem State.afterSample_hret (f : Flag) (s : State) : (s.afterSample f).hret = s.hret := rfl
@[simp] theorem State.afterSample_prog (f : Flag) (s : State) : (s.afterSample f).prog = s.prog := rfl
@[simp] theorem State.afterSample_pollLimit (f : Flag) (s : State) : (s.afterSample f).pollLimit = s.pollLimit := rfl
@[simp] theorem State.afterSample_numerics (f : Flag) (s : State) : (s.afterSample f).numerics = s.numerics := rfl
@[simp] theorem State.afterSample_turns (f : Flag) (s : State) : (s.afterSample f).turns = s.turns := rfl
@[simp] theorem State.afterSample_readData (f : Flag) (s : State) : (s.afterSample f).readData = s.readData := rfl
@[simp] theorem State.afterSample_envInput (f : Flag) (s : State) : (s.afterSample f).envInput = s.envInput.tail := rfl
@[simp] theorem State.afterSample_envCount (f : Flag) (s : State) : (s.afterSample f).envCount = s.envCount + 1 := rfl

@[simp] theorem State.finish_phase (r : Bool) (s : State) : (s.finish r).phase = .idle := rfl
@[simp] theorem State.finish_op (r : Bool) (s : State) : (s.finish r).op = s.op := rfl
@[simp] theorem State.finish_n (r : Bool) (s : State) : (s.finish r).n = s.n := rfl
@[simp] theorem State.finish_idx (r : Bool) (s : State) : (s.finish r).idx = s.idx := rfl
@[simp] theorem State.finish_cnt (r : Bool) (s : State) : (s.finish r).cnt = s.cnt := rfl
@[simp] theorem State.finish_txbuf (r : Bool) (s : State) : (s.finish r).txbuf = s.txbuf := rfl
@[simp] theorem State.finish_rxbuf (r : Bool) (s : State) : (s.finish r).rxbuf = s.rxbuf := rfl
@[simp] theorem State.finish_rxlen (r : Bool) (s : State) : (s.finish r).rxlen = s.rxlen := rfl
@[simp] theorem State.finish_rxvalid (r : Bool) (s : State) : (s.finish r).rxvalid = s.rxvalid := rfl
@[simp] theorem State.finish_initd (r : Bool) (s : State) : (s.finish r).initd = s.initd := rfl
@[simp] theorem State.finish_okv (r : Bool) (s : State) : (s.finish r).okv = true := rfl
@[simp] theorem State.finish_ok (r : Bool) (s : State) : (s.finish r).ok = r := rfl
@[simp] theorem State.finish_tempX10 (r : Bool) (s : State) : (s.finish r).tempX10 = s.tempX10 := rfl
@[simp] theorem State.finish_humX10 (r : Bool) (s : State) : (s.finish r).humX10 = s.humX10 := rfl
@[simp] theorem State.finish_cause (r : Bool) (s : State) : (s.finish r).cause = s.cause := rfl
@[simp] theorem State.finish_h (r : Bool) (s : State) : (s.finish r).h = s.h := rfl
@[simp] theorem State.finish_fault (r : Bool) (s : State) : (s.finish r).fault = s.fault := rfl
@[simp] theorem State.finish_hpc (r : Bool) (s : State) : (s.finish r).hpc = s.hpc := rfl
@[simp] theorem State.finish_hpcPast (r : Bool) (s : State) : (s.finish r).hpcPast = s.hpcPast := rfl
@[simp] theorem State.finish_hmode (r : Bool) (s : State) : (s.finish r).hmode = s.hmode := rfl
@[simp] theorem State.finish_hret (r : Bool) (s : State) : (s.finish r).hret = s.hret := rfl
@[simp] theorem State.finish_prog (r : Bool) (s : State) : (s.finish r).prog = s.prog := rfl
@[simp] theorem State.finish_pollLimit (r : Bool) (s : State) : (s.finish r).pollLimit = s.pollLimit := rfl
@[simp] theorem State.finish_numerics (r : Bool) (s : State) : (s.finish r).numerics = s.numerics := rfl
@[simp] theorem State.finish_turns (r : Bool) (s : State) : (s.finish r).turns = s.turns := rfl
@[simp] theorem State.finish_readData (r : Bool) (s : State) : (s.finish r).readData = s.readData := rfl
@[simp] theorem State.finish_envInput (r : Bool) (s : State) : (s.finish r).envInput = s.envInput := rfl
@[simp] theorem State.finish_envCount (r : Bool) (s : State) : (s.finish r).envCount = s.envCount := rfl

@[simp] theorem State.complete_phase (c : Cause) (r : Bool) (s : State) : (s.complete c r).phase = .idle := rfl
@[simp] theorem State.complete_op (c : Cause) (r : Bool) (s : State) : (s.complete c r).op = s.op := rfl
@[simp] theorem State.complete_n (c : Cause) (r : Bool) (s : State) : (s.complete c r).n = s.n := rfl
@[simp] theorem State.complete_idx (c : Cause) (r : Bool) (s : State) : (s.complete c r).idx = s.idx := rfl
@[simp] theorem State.complete_cnt (c : Cause) (r : Bool) (s : State) : (s.complete c r).cnt = s.cnt := rfl
@[simp] theorem State.complete_txbuf (c : Cause) (r : Bool) (s : State) : (s.complete c r).txbuf = s.txbuf := rfl
@[simp] theorem State.complete_rxbuf (c : Cause) (r : Bool) (s : State) : (s.complete c r).rxbuf = s.rxbuf := rfl
@[simp] theorem State.complete_rxlen (c : Cause) (r : Bool) (s : State) : (s.complete c r).rxlen = s.rxlen := rfl
@[simp] theorem State.complete_rxvalid (c : Cause) (r : Bool) (s : State) : (s.complete c r).rxvalid = s.rxvalid := rfl
@[simp] theorem State.complete_initd (c : Cause) (r : Bool) (s : State) : (s.complete c r).initd = s.initd := rfl
@[simp] theorem State.complete_okv (c : Cause) (r : Bool) (s : State) : (s.complete c r).okv = true := rfl
@[simp] theorem State.complete_ok (c : Cause) (r : Bool) (s : State) : (s.complete c r).ok = r := rfl
@[simp] theorem State.complete_tempX10 (c : Cause) (r : Bool) (s : State) : (s.complete c r).tempX10 = s.tempX10 := rfl
@[simp] theorem State.complete_humX10 (c : Cause) (r : Bool) (s : State) : (s.complete c r).humX10 = s.humX10 := rfl
@[simp] theorem State.complete_cause (c : Cause) (r : Bool) (s : State) : (s.complete c r).cause = c := rfl
@[simp] theorem State.complete_h (c : Cause) (r : Bool) (s : State) : (s.complete c r).h = s.h := rfl
@[simp] theorem State.complete_fault (c : Cause) (r : Bool) (s : State) : (s.complete c r).fault = s.fault := rfl
@[simp] theorem State.complete_hpc (c : Cause) (r : Bool) (s : State) : (s.complete c r).hpc = s.hpc := rfl
@[simp] theorem State.complete_hpcPast (c : Cause) (r : Bool) (s : State) : (s.complete c r).hpcPast = s.hpcPast := rfl
@[simp] theorem State.complete_hmode (c : Cause) (r : Bool) (s : State) : (s.complete c r).hmode = s.hmode := rfl
@[simp] theorem State.complete_hret (c : Cause) (r : Bool) (s : State) : (s.complete c r).hret = s.hret := rfl
@[simp] theorem State.complete_prog (c : Cause) (r : Bool) (s : State) : (s.complete c r).prog = s.prog := rfl
@[simp] theorem State.complete_pollLimit (c : Cause) (r : Bool) (s : State) : (s.complete c r).pollLimit = s.pollLimit := rfl
@[simp] theorem State.complete_numerics (c : Cause) (r : Bool) (s : State) : (s.complete c r).numerics = s.numerics := rfl
@[simp] theorem State.complete_turns (c : Cause) (r : Bool) (s : State) : (s.complete c r).turns = s.turns := rfl
@[simp] theorem State.complete_readData (c : Cause) (r : Bool) (s : State) : (s.complete c r).readData = s.readData := rfl
@[simp] theorem State.complete_envInput (c : Cause) (r : Bool) (s : State) : (s.complete c r).envInput = s.envInput := rfl
@[simp] theorem State.complete_envCount (c : Cause) (r : Bool) (s : State) : (s.complete c r).envCount = s.envCount := rfl

@[simp] theorem State.abort_phase (c : Cause) (s : State) : (s.abort c).phase = .idle := by
  unfold State.abort; split <;> rfl
@[simp] theorem State.abort_op (c : Cause) (s : State) : (s.abort c).op = s.op := by
  unfold State.abort; split <;> rfl
@[simp] theorem State.abort_n (c : Cause) (s : State) : (s.abort c).n = s.n := by
  unfold State.abort; split <;> rfl
@[simp] theorem State.abort_idx (c : Cause) (s : State) : (s.abort c).idx = s.idx := by
  unfold State.abort; split <;> rfl
@[simp] theorem State.abort_cnt (c : Cause) (s : State) : (s.abort c).cnt = s.cnt := by
  unfold State.abort; split <;> rfl
@[simp] theorem State.abort_txbuf (c : Cause) (s : State) : (s.abort c).txbuf = s.txbuf := by
  unfold State.abort; split <;> rfl
@[simp] theorem State.abort_rxbuf (c : Cause) (s : State) : (s.abort c).rxbuf = s.rxbuf := by
  unfold State.abort; split <;> rfl
@[simp] theorem State.abort_rxlen (c : Cause) (s : State) : (s.abort c).rxlen = s.rxlen := by
  unfold State.abort; split <;> rfl
@[simp] theorem State.abort_rxvalid (c : Cause) (s : State) : (s.abort c).rxvalid = s.rxvalid := by
  unfold State.abort; split <;> rfl
@[simp] theorem State.abort_initd (c : Cause) (s : State) : (s.abort c).initd = s.initd := by
  unfold State.abort; split <;> rfl
@[simp] theorem State.abort_okv (c : Cause) (s : State) : (s.abort c).okv = true := by
  unfold State.abort; split <;> rfl
@[simp] theorem State.abort_ok (c : Cause) (s : State) : (s.abort c).ok = false := by
  unfold State.abort; split <;> rfl
@[simp] theorem State.abort_tempX10 (c : Cause) (s : State) : (s.abort c).tempX10 = s.tempX10 := by
  unfold State.abort; split <;> rfl
@[simp] theorem State.abort_humX10 (c : Cause) (s : State) : (s.abort c).humX10 = s.humX10 := by
  unfold State.abort; split <;> rfl
@[simp] theorem State.abort_cause (c : Cause) (s : State) : (s.abort c).cause = c := by
  unfold State.abort; split <;> rfl
@[simp] theorem State.abort_h (c : Cause) (s : State) : (s.abort c).h = if s.nextBit .draw then s.h ++ [.stop] else s.h := by
  unfold State.abort; split <;> rfl
@[simp] theorem State.abort_fault (c : Cause) (s : State) : (s.abort c).fault = s.fault := by
  unfold State.abort; split <;> rfl
@[simp] theorem State.abort_hpc (c : Cause) (s : State) : (s.abort c).hpc = s.hpc := by
  unfold State.abort; split <;> rfl
@[simp] theorem State.abort_hpcPast (c : Cause) (s : State) : (s.abort c).hpcPast = s.hpcPast := by
  unfold State.abort; split <;> rfl
@[simp] theorem State.abort_hmode (c : Cause) (s : State) : (s.abort c).hmode = s.hmode := by
  unfold State.abort; split <;> rfl
@[simp] theorem State.abort_hret (c : Cause) (s : State) : (s.abort c).hret = s.hret := by
  unfold State.abort; split <;> rfl
@[simp] theorem State.abort_prog (c : Cause) (s : State) : (s.abort c).prog = s.prog := by
  unfold State.abort; split <;> rfl
@[simp] theorem State.abort_pollLimit (c : Cause) (s : State) : (s.abort c).pollLimit = s.pollLimit := by
  unfold State.abort; split <;> rfl
@[simp] theorem State.abort_numerics (c : Cause) (s : State) : (s.abort c).numerics = s.numerics := by
  unfold State.abort; split <;> rfl
@[simp] theorem State.abort_turns (c : Cause) (s : State) : (s.abort c).turns = s.turns := by
  unfold State.abort; split <;> rfl
@[simp] theorem State.abort_readData (c : Cause) (s : State) : (s.abort c).readData = s.readData := by
  unfold State.abort; split <;> rfl
@[simp] theorem State.abort_envInput (c : Cause) (s : State) : (s.abort c).envInput = s.envInput.tail := by
  unfold State.abort; split <;> rfl
@[simp] theorem State.abort_envCount (c : Cause) (s : State) : (s.abort c).envCount = s.envCount + 1 := by
  unfold State.abort; split <;> rfl

@[simp] theorem State.startTransfer_phase (o : XferOp) (k : BitVec 3) (s : State) : (s.startTransfer o k).phase = .wBusy := rfl
@[simp] theorem State.startTransfer_op (o : XferOp) (k : BitVec 3) (s : State) : (s.startTransfer o k).op = some o := rfl
@[simp] theorem State.startTransfer_n (o : XferOp) (k : BitVec 3) (s : State) : (s.startTransfer o k).n = some k := rfl
@[simp] theorem State.startTransfer_idx (o : XferOp) (k : BitVec 3) (s : State) : (s.startTransfer o k).idx = some 0#3 := rfl
@[simp] theorem State.startTransfer_cnt (o : XferOp) (k : BitVec 3) (s : State) : (s.startTransfer o k).cnt = 0#14 := rfl
@[simp] theorem State.startTransfer_txbuf (o : XferOp) (k : BitVec 3) (s : State) : (s.startTransfer o k).txbuf = s.txbuf := rfl
@[simp] theorem State.startTransfer_rxbuf (o : XferOp) (k : BitVec 3) (s : State) : (s.startTransfer o k).rxbuf = s.rxbuf := rfl
@[simp] theorem State.startTransfer_rxlen (o : XferOp) (k : BitVec 3) (s : State) : (s.startTransfer o k).rxlen = s.rxlen := rfl
@[simp] theorem State.startTransfer_rxvalid (o : XferOp) (k : BitVec 3) (s : State) : (s.startTransfer o k).rxvalid = s.rxvalid := rfl
@[simp] theorem State.startTransfer_initd (o : XferOp) (k : BitVec 3) (s : State) : (s.startTransfer o k).initd = s.initd := rfl
@[simp] theorem State.startTransfer_okv (o : XferOp) (k : BitVec 3) (s : State) : (s.startTransfer o k).okv = false := rfl
@[simp] theorem State.startTransfer_ok (o : XferOp) (k : BitVec 3) (s : State) : (s.startTransfer o k).ok = false := rfl
@[simp] theorem State.startTransfer_tempX10 (o : XferOp) (k : BitVec 3) (s : State) : (s.startTransfer o k).tempX10 = s.tempX10 := rfl
@[simp] theorem State.startTransfer_humX10 (o : XferOp) (k : BitVec 3) (s : State) : (s.startTransfer o k).humX10 = s.humX10 := rfl
@[simp] theorem State.startTransfer_cause (o : XferOp) (k : BitVec 3) (s : State) : (s.startTransfer o k).cause = s.cause := rfl
@[simp] theorem State.startTransfer_h (o : XferOp) (k : BitVec 3) (s : State) : (s.startTransfer o k).h = s.h := rfl
@[simp] theorem State.startTransfer_fault (o : XferOp) (k : BitVec 3) (s : State) : (s.startTransfer o k).fault = s.fault := rfl
@[simp] theorem State.startTransfer_hpc (o : XferOp) (k : BitVec 3) (s : State) : (s.startTransfer o k).hpc = s.hpc := rfl
@[simp] theorem State.startTransfer_hpcPast (o : XferOp) (k : BitVec 3) (s : State) : (s.startTransfer o k).hpcPast = s.hpcPast := rfl
@[simp] theorem State.startTransfer_hmode (o : XferOp) (k : BitVec 3) (s : State) : (s.startTransfer o k).hmode = s.hmode := rfl
@[simp] theorem State.startTransfer_hret (o : XferOp) (k : BitVec 3) (s : State) : (s.startTransfer o k).hret = s.hret := rfl
@[simp] theorem State.startTransfer_prog (o : XferOp) (k : BitVec 3) (s : State) : (s.startTransfer o k).prog = s.prog := rfl
@[simp] theorem State.startTransfer_pollLimit (o : XferOp) (k : BitVec 3) (s : State) : (s.startTransfer o k).pollLimit = s.pollLimit := rfl
@[simp] theorem State.startTransfer_numerics (o : XferOp) (k : BitVec 3) (s : State) : (s.startTransfer o k).numerics = s.numerics := rfl
@[simp] theorem State.startTransfer_turns (o : XferOp) (k : BitVec 3) (s : State) : (s.startTransfer o k).turns = s.turns := rfl
@[simp] theorem State.startTransfer_readData (o : XferOp) (k : BitVec 3) (s : State) : (s.startTransfer o k).readData = s.readData := rfl
@[simp] theorem State.startTransfer_envInput (o : XferOp) (k : BitVec 3) (s : State) : (s.startTransfer o k).envInput = s.envInput := rfl
@[simp] theorem State.startTransfer_envCount (o : XferOp) (k : BitVec 3) (s : State) : (s.startTransfer o k).envCount = s.envCount := rfl

@[simp] theorem State.commitPair_phase (t u : Int) (s : State) : (s.commitPair t u).phase = s.phase := rfl
@[simp] theorem State.commitPair_op (t u : Int) (s : State) : (s.commitPair t u).op = s.op := rfl
@[simp] theorem State.commitPair_n (t u : Int) (s : State) : (s.commitPair t u).n = s.n := rfl
@[simp] theorem State.commitPair_idx (t u : Int) (s : State) : (s.commitPair t u).idx = s.idx := rfl
@[simp] theorem State.commitPair_cnt (t u : Int) (s : State) : (s.commitPair t u).cnt = s.cnt := rfl
@[simp] theorem State.commitPair_txbuf (t u : Int) (s : State) : (s.commitPair t u).txbuf = s.txbuf := rfl
@[simp] theorem State.commitPair_rxbuf (t u : Int) (s : State) : (s.commitPair t u).rxbuf = s.rxbuf := rfl
@[simp] theorem State.commitPair_rxlen (t u : Int) (s : State) : (s.commitPair t u).rxlen = s.rxlen := rfl
@[simp] theorem State.commitPair_rxvalid (t u : Int) (s : State) : (s.commitPair t u).rxvalid = s.rxvalid := rfl
@[simp] theorem State.commitPair_initd (t u : Int) (s : State) : (s.commitPair t u).initd = s.initd := rfl
@[simp] theorem State.commitPair_okv (t u : Int) (s : State) : (s.commitPair t u).okv = s.okv := rfl
@[simp] theorem State.commitPair_ok (t u : Int) (s : State) : (s.commitPair t u).ok = s.ok := rfl
@[simp] theorem State.commitPair_tempX10 (t u : Int) (s : State) : (s.commitPair t u).tempX10 = store16 t := rfl
@[simp] theorem State.commitPair_humX10 (t u : Int) (s : State) : (s.commitPair t u).humX10 = store16 u := rfl
@[simp] theorem State.commitPair_cause (t u : Int) (s : State) : (s.commitPair t u).cause = s.cause := rfl
@[simp] theorem State.commitPair_h (t u : Int) (s : State) : (s.commitPair t u).h = s.h := rfl
@[simp] theorem State.commitPair_fault (t u : Int) (s : State) : (s.commitPair t u).fault = s.fault := rfl
@[simp] theorem State.commitPair_hpc (t u : Int) (s : State) : (s.commitPair t u).hpc = s.hpc := rfl
@[simp] theorem State.commitPair_hpcPast (t u : Int) (s : State) : (s.commitPair t u).hpcPast = s.hpcPast := rfl
@[simp] theorem State.commitPair_hmode (t u : Int) (s : State) : (s.commitPair t u).hmode = s.hmode := rfl
@[simp] theorem State.commitPair_hret (t u : Int) (s : State) : (s.commitPair t u).hret = s.hret := rfl
@[simp] theorem State.commitPair_prog (t u : Int) (s : State) : (s.commitPair t u).prog = s.prog := rfl
@[simp] theorem State.commitPair_pollLimit (t u : Int) (s : State) : (s.commitPair t u).pollLimit = s.pollLimit := rfl
@[simp] theorem State.commitPair_numerics (t u : Int) (s : State) : (s.commitPair t u).numerics = s.numerics := rfl
@[simp] theorem State.commitPair_turns (t u : Int) (s : State) : (s.commitPair t u).turns = s.turns := rfl
@[simp] theorem State.commitPair_readData (t u : Int) (s : State) : (s.commitPair t u).readData = s.readData := rfl
@[simp] theorem State.commitPair_envInput (t u : Int) (s : State) : (s.commitPair t u).envInput = s.envInput := rfl
@[simp] theorem State.commitPair_envCount (t u : Int) (s : State) : (s.commitPair t u).envCount = s.envCount := rfl

@[simp] theorem State.nextWord_phase (s : State) : s.nextWord.phase = s.phase := rfl
@[simp] theorem State.nextWord_op (s : State) : s.nextWord.op = s.op := rfl
@[simp] theorem State.nextWord_n (s : State) : s.nextWord.n = s.n := rfl
@[simp] theorem State.nextWord_idx (s : State) : s.nextWord.idx = s.idx := rfl
@[simp] theorem State.nextWord_cnt (s : State) : s.nextWord.cnt = s.cnt := rfl
@[simp] theorem State.nextWord_txbuf (s : State) : s.nextWord.txbuf = s.txbuf := rfl
@[simp] theorem State.nextWord_rxbuf (s : State) : s.nextWord.rxbuf = s.rxbuf := rfl
@[simp] theorem State.nextWord_rxlen (s : State) : s.nextWord.rxlen = s.rxlen := rfl
@[simp] theorem State.nextWord_rxvalid (s : State) : s.nextWord.rxvalid = s.rxvalid := rfl
@[simp] theorem State.nextWord_initd (s : State) : s.nextWord.initd = s.initd := rfl
@[simp] theorem State.nextWord_okv (s : State) : s.nextWord.okv = s.okv := rfl
@[simp] theorem State.nextWord_ok (s : State) : s.nextWord.ok = s.ok := rfl
@[simp] theorem State.nextWord_tempX10 (s : State) : s.nextWord.tempX10 = s.tempX10 := rfl
@[simp] theorem State.nextWord_humX10 (s : State) : s.nextWord.humX10 = s.humX10 := rfl
@[simp] theorem State.nextWord_cause (s : State) : s.nextWord.cause = s.cause := rfl
@[simp] theorem State.nextWord_h (s : State) : s.nextWord.h = s.h := rfl
@[simp] theorem State.nextWord_fault (s : State) : s.nextWord.fault = s.fault := rfl
@[simp] theorem State.nextWord_hpc (s : State) : s.nextWord.hpc = s.hpc + 1#16 := rfl
@[simp] theorem State.nextWord_hpcPast (s : State) : s.nextWord.hpcPast = (s.hpcPast || s.hpc == 0xFFFF#16) := rfl
@[simp] theorem State.nextWord_hmode (s : State) : s.nextWord.hmode = s.hmode := rfl
@[simp] theorem State.nextWord_hret (s : State) : s.nextWord.hret = s.hret := rfl
@[simp] theorem State.nextWord_prog (s : State) : s.nextWord.prog = s.prog := rfl
@[simp] theorem State.nextWord_pollLimit (s : State) : s.nextWord.pollLimit = s.pollLimit := rfl
@[simp] theorem State.nextWord_numerics (s : State) : s.nextWord.numerics = s.numerics := rfl
@[simp] theorem State.nextWord_turns (s : State) : s.nextWord.turns = s.turns := rfl
@[simp] theorem State.nextWord_readData (s : State) : s.nextWord.readData = s.readData := rfl
@[simp] theorem State.nextWord_envInput (s : State) : s.nextWord.envInput = s.envInput := rfl
@[simp] theorem State.nextWord_envCount (s : State) : s.nextWord.envCount = s.envCount := rfl

@[simp] theorem State.jumpTo_phase (t : BitVec 16) (s : State) : (s.jumpTo t).phase = s.phase := rfl
@[simp] theorem State.jumpTo_op (t : BitVec 16) (s : State) : (s.jumpTo t).op = s.op := rfl
@[simp] theorem State.jumpTo_n (t : BitVec 16) (s : State) : (s.jumpTo t).n = s.n := rfl
@[simp] theorem State.jumpTo_idx (t : BitVec 16) (s : State) : (s.jumpTo t).idx = s.idx := rfl
@[simp] theorem State.jumpTo_cnt (t : BitVec 16) (s : State) : (s.jumpTo t).cnt = s.cnt := rfl
@[simp] theorem State.jumpTo_txbuf (t : BitVec 16) (s : State) : (s.jumpTo t).txbuf = s.txbuf := rfl
@[simp] theorem State.jumpTo_rxbuf (t : BitVec 16) (s : State) : (s.jumpTo t).rxbuf = s.rxbuf := rfl
@[simp] theorem State.jumpTo_rxlen (t : BitVec 16) (s : State) : (s.jumpTo t).rxlen = s.rxlen := rfl
@[simp] theorem State.jumpTo_rxvalid (t : BitVec 16) (s : State) : (s.jumpTo t).rxvalid = s.rxvalid := rfl
@[simp] theorem State.jumpTo_initd (t : BitVec 16) (s : State) : (s.jumpTo t).initd = s.initd := rfl
@[simp] theorem State.jumpTo_okv (t : BitVec 16) (s : State) : (s.jumpTo t).okv = s.okv := rfl
@[simp] theorem State.jumpTo_ok (t : BitVec 16) (s : State) : (s.jumpTo t).ok = s.ok := rfl
@[simp] theorem State.jumpTo_tempX10 (t : BitVec 16) (s : State) : (s.jumpTo t).tempX10 = s.tempX10 := rfl
@[simp] theorem State.jumpTo_humX10 (t : BitVec 16) (s : State) : (s.jumpTo t).humX10 = s.humX10 := rfl
@[simp] theorem State.jumpTo_cause (t : BitVec 16) (s : State) : (s.jumpTo t).cause = s.cause := rfl
@[simp] theorem State.jumpTo_h (t : BitVec 16) (s : State) : (s.jumpTo t).h = s.h := rfl
@[simp] theorem State.jumpTo_fault (t : BitVec 16) (s : State) : (s.jumpTo t).fault = s.fault := rfl
@[simp] theorem State.jumpTo_hpc (t : BitVec 16) (s : State) : (s.jumpTo t).hpc = t := rfl
@[simp] theorem State.jumpTo_hpcPast (t : BitVec 16) (s : State) : (s.jumpTo t).hpcPast = false := rfl
@[simp] theorem State.jumpTo_hmode (t : BitVec 16) (s : State) : (s.jumpTo t).hmode = s.hmode := rfl
@[simp] theorem State.jumpTo_hret (t : BitVec 16) (s : State) : (s.jumpTo t).hret = s.hret := rfl
@[simp] theorem State.jumpTo_prog (t : BitVec 16) (s : State) : (s.jumpTo t).prog = s.prog := rfl
@[simp] theorem State.jumpTo_pollLimit (t : BitVec 16) (s : State) : (s.jumpTo t).pollLimit = s.pollLimit := rfl
@[simp] theorem State.jumpTo_numerics (t : BitVec 16) (s : State) : (s.jumpTo t).numerics = s.numerics := rfl
@[simp] theorem State.jumpTo_turns (t : BitVec 16) (s : State) : (s.jumpTo t).turns = s.turns := rfl
@[simp] theorem State.jumpTo_readData (t : BitVec 16) (s : State) : (s.jumpTo t).readData = s.readData := rfl
@[simp] theorem State.jumpTo_envInput (t : BitVec 16) (s : State) : (s.jumpTo t).envInput = s.envInput := rfl
@[simp] theorem State.jumpTo_envCount (t : BitVec 16) (s : State) : (s.jumpTo t).envCount = s.envCount := rfl

@[simp] theorem State.capture_phase (s : State) : s.capture.phase = s.phase := rfl
@[simp] theorem State.capture_op (s : State) : s.capture.op = s.op := rfl
@[simp] theorem State.capture_n (s : State) : s.capture.n = s.n := rfl
@[simp] theorem State.capture_idx (s : State) : s.capture.idx = s.idx := rfl
@[simp] theorem State.capture_cnt (s : State) : s.capture.cnt = s.cnt := rfl
@[simp] theorem State.capture_txbuf (s : State) : s.capture.txbuf = s.txbuf := rfl
@[simp] theorem State.capture_rxbuf (s : State) : s.capture.rxbuf = s.rxbuf.setIfInBounds s.curIdx.toNat (some (s.nextChoice .rxData)) := rfl
@[simp] theorem State.capture_rxlen (s : State) : s.capture.rxlen = s.rxlen := rfl
@[simp] theorem State.capture_rxvalid (s : State) : s.capture.rxvalid = s.rxvalid := rfl
@[simp] theorem State.capture_initd (s : State) : s.capture.initd = s.initd := rfl
@[simp] theorem State.capture_okv (s : State) : s.capture.okv = s.okv := rfl
@[simp] theorem State.capture_ok (s : State) : s.capture.ok = s.ok := rfl
@[simp] theorem State.capture_tempX10 (s : State) : s.capture.tempX10 = s.tempX10 := rfl
@[simp] theorem State.capture_humX10 (s : State) : s.capture.humX10 = s.humX10 := rfl
@[simp] theorem State.capture_cause (s : State) : s.capture.cause = s.cause := rfl
@[simp] theorem State.capture_h (s : State) : s.capture.h = s.h ++ [.rx (s.nextChoice .rxData)] := rfl
@[simp] theorem State.capture_fault (s : State) : s.capture.fault = s.fault := rfl
@[simp] theorem State.capture_hpc (s : State) : s.capture.hpc = s.hpc := rfl
@[simp] theorem State.capture_hpcPast (s : State) : s.capture.hpcPast = s.hpcPast := rfl
@[simp] theorem State.capture_hmode (s : State) : s.capture.hmode = s.hmode := rfl
@[simp] theorem State.capture_hret (s : State) : s.capture.hret = s.hret := rfl
@[simp] theorem State.capture_prog (s : State) : s.capture.prog = s.prog := rfl
@[simp] theorem State.capture_pollLimit (s : State) : s.capture.pollLimit = s.pollLimit := rfl
@[simp] theorem State.capture_numerics (s : State) : s.capture.numerics = s.numerics := rfl
@[simp] theorem State.capture_turns (s : State) : s.capture.turns = s.turns := rfl
@[simp] theorem State.capture_readData (s : State) : s.capture.readData = s.readData := rfl
@[simp] theorem State.capture_envInput (s : State) : s.capture.envInput = s.envInput.tail := rfl
@[simp] theorem State.capture_envCount (s : State) : s.capture.envCount = s.envCount + 1 := rfl

end Sys2Proof.Machine
end

