-- ==== Sys2Proof/Laws/Ops.lean ====
section
/-! SUPPORT. What each shared operation can do, said once: a caller cites these and unfolds no operation. -/

namespace Sys2Proof.Machine

variable {s t : State} {k : State → Result}

@[simp] theorem whileRunning_running (hf : s.fault = none) : whileRunning k s = k s := by
  simp [whileRunning, hf]

@[simp] theorem whileRunning_stopped {c : FaultCode} (hf : s.fault = some c) :
    whileRunning k s = .fault (.stopped c) := by
  simp [whileRunning, hf]

theorem whileRunning_cases (h : whileRunning k s = .next t) : s.fault = none ∧ k s = .next t := by
  unfold whileRunning at h
  split at h
  · cases h
  · exact ⟨‹_›, h⟩

theorem whileRunning_refused {r : Refusal} (h : whileRunning k s = .refused r) :
    s.fault = none ∧ k s = .refused r := by
  unfold whileRunning at h
  split at h
  · cases h
  · exact ⟨‹_›, h⟩

@[simp] theorem raise_eq (c : FaultCode) (s : State) : raise c s = .next { s with fault := some c } := rfl

theorem issue_idle (hf : s.fault = none) (hp : s.phase = .idle) : issue k s = k s := by
  simp [issue, hf, hp]

theorem issue_busy (hf : s.fault = none) (hp : s.phase ≠ .idle) :
    issue k s = .next { s with fault := some .overlap } := by
  simp [issue, hf, hp]

/-- An issue raises OVERLAP while a transaction runs, and is the command otherwise (R101). -/
theorem issue_cases (h : issue k s = .next t) :
    s.fault = none ∧
      ((s.phase ≠ .idle ∧ t = { s with fault := some .overlap }) ∨ (s.phase = .idle ∧ k s = .next t)) := by
  obtain ⟨hf, h⟩ := whileRunning_cases h
  refine ⟨hf, ?_⟩
  split at h
  · exact .inr ⟨‹_›, h⟩
  · exact .inl ⟨‹_›, by simpa [raise] using h.symm⟩

/-- What an issued XW can do (R101, R102). -/
theorem issueXw_cases {n : BitVec 3} {b0 b1 b2 : Byte} (h : issueXw n b0 b1 b2 s = .next t) :
    s.fault = none ∧
      ((s.phase ≠ .idle ∧ t = { s with fault := some .overlap }) ∨
       (s.phase = .idle ∧ s.initd = false ∧ t = { s with fault := some .notInit }) ∨
       (s.phase = .idle ∧ s.initd = true ∧
          t = { s.startTransfer .xw n with txbuf := payload b0 b1 b2 })) := by
  obtain ⟨hf, ⟨hp, rfl⟩ | ⟨hp, h⟩⟩ := issue_cases h
  · exact ⟨hf, .inl ⟨hp, rfl⟩⟩
  · cases hi : s.initd
    · exact ⟨hf, .inr (.inl ⟨hp, rfl, by simpa [hi] using h.symm⟩)⟩
    · exact ⟨hf, .inr (.inr ⟨hp, rfl, by simpa [hi] using h.symm⟩)⟩

/-- What an issued XR can do (R101, R120). -/
theorem issueXr_cases {n : BitVec 3} (h : issueXr n s = .next t) :
    s.fault = none ∧
      ((s.phase ≠ .idle ∧ t = { s with fault := some .overlap }) ∨
       (s.phase = .idle ∧ s.initd = false ∧ t = { s with fault := some .notInit }) ∨
       (s.phase = .idle ∧ s.initd = true ∧
          t = { s.startTransfer .xr n with rxvalid := false, rxlen := n })) := by
  obtain ⟨hf, ⟨hp, rfl⟩ | ⟨hp, h⟩⟩ := issue_cases h
  · exact ⟨hf, .inl ⟨hp, rfl⟩⟩
  · cases hi : s.initd
    · exact ⟨hf, .inr (.inl ⟨hp, rfl, by simpa [hi] using h.symm⟩)⟩
    · exact ⟨hf, .inr (.inr ⟨hp, rfl, by simpa [hi] using h.symm⟩)⟩

/-- What INIT can do (R103). -/
theorem execInit_cases (h : execInit s = .next t) :
    s.fault = none ∧
      ((s.phase ≠ .idle ∧ t = { s with fault := some .overlap }) ∨
       (s.phase = .idle ∧ s.initd = true ∧ t = { s with fault := some .reinit }) ∨
       (s.phase = .idle ∧ s.initd = false ∧
          t = { s.emit .busInit with initd := true }.complete .none true)) := by
  obtain ⟨hf, ⟨hp, rfl⟩ | ⟨hp, h⟩⟩ := issue_cases h
  · exact ⟨hf, .inl ⟨hp, rfl⟩⟩
  · cases hi : s.initd
    · exact ⟨hf, .inr (.inr ⟨hp, rfl, by simpa [hi] using h.symm⟩)⟩
    · exact ⟨hf, .inr (.inl ⟨hp, rfl, by simpa [hi] using h.symm⟩)⟩

/-- What CLR can do (R150). -/
theorem execClr_cases (h : execClr s = .next t) :
    s.fault = none ∧
      ((s.phase ≠ .idle ∧ t = { s with fault := some .overlap }) ∨
       (s.phase = .idle ∧ t = { s with tempX10 := 0#16, humX10 := 0#16 }.complete .none true)) := by
  obtain ⟨hf, ⟨hp, rfl⟩ | ⟨hp, h⟩⟩ := issue_cases h
  · exact ⟨hf, .inl ⟨hp, rfl⟩⟩
  · exact ⟨hf, .inr ⟨hp, by simpa using h.symm⟩⟩

/-- What DEC can do (R141). -/
theorem execDec_cases (h : execDec s = .next t) :
    s.fault = none ∧
      ((s.phase ≠ .idle ∧ t = { s with fault := some .overlap }) ∨
       (s.phase = .idle ∧ (s.rxvalid = false ∨ s.rxlen.toNat ≠ Config.frameLen) ∧
          t = s.complete .noFrame false) ∨
       (s.phase = .idle ∧ s.rxvalid = true ∧ s.rxlen.toNat = Config.frameLen ∧ s.rxFrame.busy = true ∧
          t = s.complete .sensorBusy false) ∨
       (s.phase = .idle ∧ s.rxvalid = true ∧ s.rxlen.toNat = Config.frameLen ∧ s.rxFrame.busy = false ∧
          t = (s.commitPair (tempX10 s.numerics s.rxFrame.tempRaw)
            (humX10 s.numerics s.rxFrame.humRaw)).complete .none true)) := by
  obtain ⟨hf, ⟨hp, rfl⟩ | ⟨hp, h⟩⟩ := issue_cases h
  · exact ⟨hf, .inl ⟨hp, rfl⟩⟩
  · refine ⟨hf, .inr ?_⟩
    by_cases hv : s.rxvalid = false ∨ s.rxlen.toNat ≠ Config.frameLen
    · rw [if_pos hv] at h
      exact .inl ⟨hp, hv, by simpa using h.symm⟩
    · rw [if_neg hv] at h
      simp only [not_or, Bool.not_eq_false, not_not] at hv
      cases hb : s.rxFrame.busy
      · exact .inr (.inr ⟨hp, hv.1, hv.2, rfl, by simpa [decodeFrame, hb] using h.symm⟩)
      · exact .inr (.inl ⟨hp, hv.1, hv.2, rfl, by simpa [decodeFrame, hb] using h.symm⟩)

/-- HPC names a word exactly when it is an index of PROG (R161). -/
theorem wordAtHpc_eq_some {w : Word} :
    s.wordAtHpc = some w ↔ s.hpcPast = false ∧ s.prog[s.hpc.toNat]? = some w := by
  cases h : s.hpcPast <;> simp [State.wordAtHpc, h]

theorem wordAtHpc_eq_none : s.wordAtHpc = none ↔ s.hpcPast = true ∨ s.prog.length ≤ s.hpc.toNat := by
  cases h : s.hpcPast <;> simp [State.wordAtHpc, h]

/-- What starting a sequence can do: a list that is a sequence is run from index 0, and no other (R160). -/
theorem startSequence_cases {prog : List Word} (h : s.startSequence prog = some t) :
    prog.length ≤ maxSequence ∧ t = { s.jumpTo 0#16 with prog := prog, hmode := .run, hret := none } := by
  unfold State.startSequence at h
  split at h
  · exact ⟨‹_›, by simpa using h.symm⟩
  · cases h

/-- Placing a word at a 16-bit index keeps PROG's bound (R38). -/
theorem placeWord_length {prog : List Word} (w : Word) (k : BitVec 16) (hl : prog.length ≤ maxSequence) :
    (placeWord prog k.toNat w).length ≤ maxSequence := by
  have := k.isLt
  simp only [placeWord, List.length_append, List.length_take, List.length_replicate, List.length_drop,
    List.length_singleton, maxSequence] at *
  omega

/-- What DELAY can do (R163). -/
theorem execDelay_cases {ms : BitVec 16} (h : execDelay ms s = .next t) :
    s.fault = none ∧ t = (s.emit (.delay ms)).nextWord := by
  obtain ⟨hf, h⟩ := whileRunning_cases h
  exact ⟨hf, by simpa using h.symm⟩

/-- What JF can do (R164). -/
theorem execJf_cases {j : BitVec 16} (h : execJf j s = .next t) :
    s.fault = none ∧
      ((s.prog.length ≤ j.toNat ∧ t = { s with fault := some .hBadTarget }) ∨
       (j.toNat < s.prog.length ∧ s.okv = false ∧ t = { s with fault := some .hNoResult }) ∨
       (j.toNat < s.prog.length ∧ s.okv = true ∧ s.ok = false ∧ t = s.jumpTo j) ∨
       (j.toNat < s.prog.length ∧ s.okv = true ∧ s.ok = true ∧ t = s.nextWord)) := by
  obtain ⟨hf, h⟩ := whileRunning_cases h
  refine ⟨hf, ?_⟩
  by_cases hl : s.prog.length ≤ j.toNat
  · exact .inl ⟨hl, by simpa [hl] using h.symm⟩
  · rw [if_neg hl] at h
    have hl' : j.toNat < s.prog.length := by omega
    cases hv : s.okv
    · exact .inr (.inl ⟨hl', rfl, by simpa [hv] using h.symm⟩)
    · cases ho : s.ok
      · exact .inr (.inr (.inl ⟨hl', rfl, rfl, by simpa [hv, ho] using h.symm⟩))
      · exact .inr (.inr (.inr ⟨hl', rfl, rfl, by simpa [hv, ho] using h.symm⟩))

/-- What RET can do (R165). -/
theorem returnWith_cases {v : RetVal} (h : returnWith v s = .next t) :
    s.fault = none ∧ t = { s with hret := some v, hmode := .halt } := by
  obtain ⟨hf, h⟩ := whileRunning_cases h
  exact ⟨hf, by simpa using h.symm⟩

/-- What driving a wire address byte can do (R80, R111). -/
theorem driveAddress_cases {rw : Bool} (h : driveAddress rw s = .next t) :
    s.fault = none ∧ t = { s.emit (.addr (addrByte rw)) with phase := .wAddr, cnt := 0#14 } := by
  obtain ⟨hf, h⟩ := whileRunning_cases h
  exact ⟨hf, by simpa using h.symm⟩

/-- One sample of a wait succeeds, times out or stays (R110). -/
theorem pollStep_cases {f : Flag} {v : Bool} {met timeout : State → Result}
    (h : pollStep f v met timeout s = .next t) :
    (s.sampled f = v ∧ met { s.afterSample f with cnt := s.cnt + 1#14 } = .next t) ∨
    (s.sampled f ≠ v ∧ s.cnt + 1#14 = s.pollLimit ∧
      timeout { s.afterSample f with cnt := s.cnt + 1#14 } = .next t) ∨
    (s.sampled f ≠ v ∧ s.cnt + 1#14 ≠ s.pollLimit ∧
      t = { s.afterSample f with cnt := s.cnt + 1#14 }) := by
  simp only [pollStep] at h
  split at h
  · exact .inl ⟨‹_›, h⟩
  · split at h
    · exact .inr (.inl ⟨‹_›, ‹_›, h⟩)
    · exact .inr (.inr ⟨‹_›, ‹_›, by simpa using h.symm⟩)

/-- What follows W_BUSY's success (R111). -/
theorem busyMet_cases (h : busyMet s = .next t) :
    s.fault = none ∧
      t = { (s.emit .start).emit (.addr (addrByte (decide (s.curOp = .xr)))) with phase := .wAddr, cnt := 0#14 } := by
  unfold busyMet at h
  split at h
  · rename_i ho
    simpa [ho] using driveAddress_cases h
  · rename_i ho
    simpa [ho] using driveAddress_cases h

/-- A step of a running machine, unless it faulted, has taken its turn off the list (R62). -/
theorem thenTurns_cases {rest : List Turn} {o : Result} (h : thenTurns rest o = .next t) :
    ∃ u, o = .next u ∧ ((u.fault = none ∧ t = { u with turns := rest }) ∨ (u.fault ≠ none ∧ t = u)) := by
  unfold thenTurns at h
  split at h
  · rename_i u
    refine ⟨u, rfl, ?_⟩
    split at h
    · exact .inl ⟨‹_›, by simpa using h.symm⟩
    · exact .inr ⟨‹_›, by simpa using h.symm⟩
  · cases h
  · cases h

/-- After the CMD write of R162's step 1. -/
theorem thenWait_cases {o : Result} (h : thenWait o = .next t) :
    ∃ u, o = .next u ∧ ((u.fault = none ∧ t = { u with hmode := .wait }) ∨ (u.fault ≠ none ∧ t = u)) := by
  unfold thenWait at h
  split at h
  · rename_i u
    refine ⟨u, rfl, ?_⟩
    split at h
    · exact .inl ⟨‹_›, by simpa using h.symm⟩
    · exact .inr ⟨‹_›, by simpa using h.symm⟩
  · cases h
  · cases h

/-- What a CMD write can do (R101). -/
theorem cmdWrite_cases {w : Word} (h : cmdWrite w s = .next t) :
    s.fault = none ∧
      ((s.phase ≠ .idle ∧ t = { s with fault := some .overlap }) ∨
       (s.phase = .idle ∧ (∀ i, decodeWord w = .ok i → i.cls ≠ .command) ∧
          t = { s with fault := some .illegalCmd }) ∨
       (s.phase = .idle ∧ ∃ i, decodeWord w = .ok i ∧ i.cls = .command ∧ exec i s = .next t)) := by
  obtain ⟨hf, ⟨hp, rfl⟩ | ⟨hp, h⟩⟩ := issue_cases h
  · exact ⟨hf, .inl ⟨hp, rfl⟩⟩
  · refine ⟨hf, .inr ?_⟩
    split at h
    · rename_i i hd
      split at h
      · exact .inr ⟨hp, i, hd, ‹_›, h⟩
      · rename_i hc
        refine .inl ⟨hp, ?_, by simpa using h.symm⟩
        intro j hj
        have : i = j := by simpa [hd] using hj
        exact this ▸ hc
    · rename_i hd
      exact .inl ⟨hp, by simp [hd], by simpa using h.symm⟩

/-- What a HOST register read can do (R26). -/
theorem regRead_cases {r : BitVec 8} (h : regRead r s = .next t) :
    s.fault = none ∧
      ((∃ v, s.readReg r = some v ∧ t = { s with readData := some v }) ∨
       (s.readReg r = none ∧ t = { s with fault := some .badAccess })) := by
  obtain ⟨hf, h⟩ := whileRunning_cases h
  refine ⟨hf, ?_⟩
  split at h
  · exact .inl ⟨_, ‹_›, by simpa using h.symm⟩
  · exact .inr ⟨‹_›, by simpa using h.symm⟩

/-- What a HOST register write can do (R26). -/
theorem regWrite_cases {r : BitVec 8} {w : Word} (h : regWrite r w s = .next t) :
    s.fault = none ∧
      ((r = regCmd ∧ cmdWrite w s = .next t) ∨ (r ≠ regCmd ∧ t = { s with fault := some .badAccess })) := by
  obtain ⟨hf, h⟩ := whileRunning_cases h
  refine ⟨hf, ?_⟩
  split at h
  · exact .inl ⟨‹_›, h⟩
  · exact .inr ⟨‹_›, by simpa using h.symm⟩

/-- What the HOST's word can do (R161 to R166). -/
theorem hostWord_cases {w : Word} (h : hostWord w s = .next t) :
    (hostWordKind w = .command ∧ thenWait (cmdWrite w s) = .next t) ∨
    (hostWordKind w = .hostWord ∧ ∃ i, decodeWord w = .ok i ∧ exec i s = .next t) ∨
    ((hostWordKind w = .illegal ∨ (hostWordKind w = .hostWord ∧ ∀ i, decodeWord w ≠ .ok i)) ∧
      t = { s with fault := some .hIllegal }) := by
  unfold hostWord at h
  split at h
  · exact .inl ⟨‹_›, h⟩
  · split at h
    · exact .inr (.inl ⟨‹_›, _, ‹_›, h⟩)
    · rename_i hd
      exact .inr (.inr ⟨.inr ⟨‹_›, by simp [hd]⟩, by simpa using h.symm⟩)
  · exact .inr (.inr ⟨.inl ‹_›, by simpa using h.symm⟩)

/-- What the step of the HOST's sequence can do (R161, R162). -/
theorem seqStep_cases (h : seqStep s = .next t) :
    (s.hmode = .run ∧ s.wordAtHpc = none ∧ t = { s with fault := some .hPcEnd }) ∨
    (s.hmode = .run ∧ ∃ w, s.wordAtHpc = some w ∧ hostWord w s = .next t) ∨
    (s.hmode = .wait ∧ s.phase = .idle ∧ t = { s.nextWord with hmode := .run }) := by
  unfold seqStep at h
  split at h
  · unfold hostFetch at h
    split at h
    · exact .inl ⟨‹_›, ‹_›, by simpa using h.symm⟩
    · exact .inr (.inl ⟨‹_›, _, ‹_›, h⟩)
  · split at h
    · rename_i hi
      exact .inr (.inr ⟨‹_›, by simpa [State.idleBit] using hi, by simpa using h.symm⟩)
    · cases h
  · cases h

end Sys2Proof.Machine
end

