-- ==== Sys2Proof/Laws/Turns.lean ====
section
/-! SUPPORT. Whose step the next one is, and the outcomes of a wait. -/

namespace Sys2Proof.Machine

variable {s t : State}

/-- XACT's turn: the step is XACT's (R62, R28). -/
theorem step_of_xactTurn (hf : s.fault = none) (h : s.XactTurn) :
    step s = thenTurns s.turns.tail (xactStep s) := by
  obtain ⟨hp, ht⟩ := h
  have hx : s.xactEnabled = true := by simpa [State.xactEnabled, State.idleBit] using hp
  unfold step agentStep
  rw [whileRunning_running hf]
  cases hl : s.turns with
  | nil => simp [takeTurns, autoStep, hx]
  | cons a l =>
    have : a = .xact := by simpa [hl] using ht
    subst this
    simp [takeTurns, hx]

/-- The HOST sequence's turn: the step is the sequence's, if it has one (R62, R161). -/
theorem step_of_hostTurn (hf : s.fault = none) (h : s.HostTurn) (he : s.seqEnabled = true) :
    step s = thenTurns s.turns.tail (seqStep s) := by
  unfold step agentStep
  rw [whileRunning_running hf]
  rcases h with h | ⟨h, hp⟩
  · cases hl : s.turns with
    | nil => simp [hl] at h
    | cons a l =>
      have : a = .seq := by simpa [hl] using h
      subst this
      simp [takeTurns, he]
  · have hx : s.xactEnabled = false := by simp [State.xactEnabled, State.idleBit, hp]
    simp [h, takeTurns, autoStep, hx]

theorem seqEnabled_of_run (h : s.hmode = .run) : s.seqEnabled = true := by simp [State.seqEnabled, h]

theorem seqStep_run (h : s.hmode = .run) : seqStep s = hostFetch s := by simp [seqStep, h]

section Wait

variable {f : Flag} {v : Bool} {met timeout : State → Result}

theorem pollStep_met (hv : s.sampled f = v) :
    pollStep f v met timeout s = met { s.afterSample f with cnt := s.cnt + 1#14 } := by
  simp only [pollStep, if_pos hv]

theorem pollStep_timeout (hv : s.sampled f ≠ v) (hc : s.cnt + 1#14 = s.pollLimit) :
    pollStep f v met timeout s = timeout { s.afterSample f with cnt := s.cnt + 1#14 } := by
  simp only [pollStep, if_neg hv, if_pos hc]

theorem pollStep_stay (hv : s.sampled f ≠ v) (hc : s.cnt + 1#14 ≠ s.pollLimit) :
    pollStep f v met timeout s = .next { s.afterSample f with cnt := s.cnt + 1#14 } := by
  simp only [pollStep, if_neg hv, if_neg hc]

end Wait

/-- abort as one record update (R130). -/
theorem abort_eq (c : Cause) (s : State) :
    s.abort c =
      { s with
        h := s.h ++ (if s.nextBit .draw then [.stop] else []), envInput := s.envInput.tail,
        envCount := s.envCount + 1, cause := c, phase := .idle, okv := true, ok := false } := by
  unfold State.abort
  split <;> simp [State.emit, State.afterChoice, State.complete, State.finish]

theorem thenTurns_next (rest : List Turn) (h : t.fault = none) :
    thenTurns rest (.next t) = .next { t with turns := rest } := by simp [thenTurns, h]

theorem thenTurns_fault (rest : List Turn) (h : t.fault ≠ none) : thenTurns rest (.next t) = .next t := by
  simp [thenTurns, h]

end Sys2Proof.Machine
end

