-- ==== Sys2Proof/Laws/Exec.lean ====
section
/-! SUPPORT. What exec can do, said once over all instructions, and what a step of XACT can do. -/

namespace Sys2Proof.Machine

variable {s t : State}

/-- The N of an XW form and its word's bytes as TXBUF takes them (R74, R55, R90). -/
def payloadOf : Instr → Option (BitVec 3 × Vector (Option Byte) 3)
  | .xw1 a => some (1#3, payload a 0#8 0#8)
  | .xw2 a b => some (2#3, payload a b 0#8)
  | .xw3 a b c => some (3#3, payload a b c)
  | .sensorReset => some (1#3, payload 0xBA#8 0#8 0#8)
  | .sensorInit => some (3#3, payload 0xE1#8 0x08#8 0x00#8)
  | .sensorMeasure => some (3#3, payload 0xAC#8 0x33#8 0x00#8)
  | _ => none

/-- The N an XR form carries (R75, R90). -/
def readLengthOf : Instr → Option (BitVec 3)
  | .xr1 => some 1#3
  | .xr2 => some 2#3
  | .xr3 => some 3#3
  | .xr4 => some 4#3
  | .xr5 => some 5#3
  | .xr6 => some 6#3
  | .readFrame => some 6#3
  | _ => none

/-- The effects an instruction can have, apart from raising a fault. -/
inductive Effect (s : State) : Instr → State → Prop
  | init (hp : s.phase = .idle) (hi : s.initd = false) :
      Effect s .init ({ s.emit .busInit with initd := true }.complete .none true)
  | clr (hp : s.phase = .idle) :
      Effect s .clr ({ s with tempX10 := 0#16, humX10 := 0#16 }.complete .none true)
  | noFrame (hp : s.phase = .idle) (hv : s.rxvalid = false ∨ s.rxlen.toNat ≠ Config.frameLen) :
      Effect s .dec (s.complete .noFrame false)
  | sensorBusy (hp : s.phase = .idle) (hv : s.rxvalid = true) (hl : s.rxlen.toNat = Config.frameLen)
      (hb : s.rxFrame.busy = true) : Effect s .dec (s.complete .sensorBusy false)
  | decode (hp : s.phase = .idle) (hv : s.rxvalid = true) (hl : s.rxlen.toNat = Config.frameLen)
      (hb : s.rxFrame.busy = false) :
      Effect s .dec ((s.commitPair (tempX10 s.numerics s.rxFrame.tempRaw)
        (humX10 s.numerics s.rxFrame.humRaw)).complete .none true)
  | write {i : Instr} {k : BitVec 3} {buf : Vector (Option Byte) 3} (hp : s.phase = .idle) (hi : s.initd = true)
      (hk : payloadOf i = some (k, buf)) :
      Effect s i { s.startTransfer .xw k with txbuf := buf }
  | read {i : Instr} {k : BitVec 3} (hp : s.phase = .idle) (hi : s.initd = true)
      (hk : readLengthOf i = some k) :
      Effect s i { s.startTransfer .xr k with rxvalid := false, rxlen := k }
  | delay {ms : BitVec 16} : Effect s (.delay ms) (s.emit (.delay ms)).nextWord
  | jump {j : BitVec 16} (hl : j.toNat < s.prog.length) (hv : s.okv = true) (ho : s.ok = false) :
      Effect s (.jf j) (s.jumpTo j)
  | fall {j : BitVec 16} (hl : j.toNat < s.prog.length) (hv : s.okv = true) (ho : s.ok = true) :
      Effect s (.jf j) s.nextWord
  | ret {i : Instr} {v : RetVal}
      (hi : (i, v) ∈ [(Instr.retFalse, RetVal.boolFalse), (.retTrue, .boolTrue), (.retVoid, .void)]) :
      Effect s i { s with hret := some v, hmode := .halt }
  | addr {i : Instr} {rw : Bool} (hi : (i, rw) ∈ [(Instr.addrW, false), (.addrR, true)]) :
      Effect s i { s.emit (.addr (addrByte rw)) with phase := .wAddr, cnt := 0#14 }

theorem write_effect {i : Instr} {k : BitVec 3} {b0 b1 b2 : Byte}
    (hk : payloadOf i = some (k, payload b0 b1 b2)) (h : issueXw k b0 b1 b2 s = .next t) :
    s.fault = none ∧ ((∃ c, t = { s with fault := some c }) ∨ Effect s i t) := by
  obtain ⟨hf, ⟨_, rfl⟩ | ⟨_, _, rfl⟩ | ⟨hp, hi, rfl⟩⟩ := issueXw_cases h
  · exact ⟨hf, .inl ⟨_, rfl⟩⟩
  · exact ⟨hf, .inl ⟨_, rfl⟩⟩
  · exact ⟨hf, .inr (.write hp hi hk)⟩

theorem read_effect {i : Instr} {k : BitVec 3} (hk : readLengthOf i = some k)
    (h : issueXr k s = .next t) :
    s.fault = none ∧ ((∃ c, t = { s with fault := some c }) ∨ Effect s i t) := by
  obtain ⟨hf, ⟨_, rfl⟩ | ⟨_, _, rfl⟩ | ⟨hp, hi, rfl⟩⟩ := issueXr_cases h
  · exact ⟨hf, .inl ⟨_, rfl⟩⟩
  · exact ⟨hf, .inl ⟨_, rfl⟩⟩
  · exact ⟨hf, .inr (.read hp hi hk)⟩

/-- An instruction raises a fault, and then writes nothing else, or has its effect. -/
theorem exec_cases {i : Instr} (h : exec i s = .next t) :
    s.fault = none ∧ ((∃ c, t = { s with fault := some c }) ∨ Effect s i t) := by
  cases i with
  | init =>
    obtain ⟨hf, ⟨_, rfl⟩ | ⟨_, _, rfl⟩ | ⟨hp, hi, rfl⟩⟩ := execInit_cases h
    · exact ⟨hf, .inl ⟨_, rfl⟩⟩
    · exact ⟨hf, .inl ⟨_, rfl⟩⟩
    · exact ⟨hf, .inr (.init hp hi)⟩
  | clr =>
    obtain ⟨hf, ⟨_, rfl⟩ | ⟨hp, rfl⟩⟩ := execClr_cases h
    · exact ⟨hf, .inl ⟨_, rfl⟩⟩
    · exact ⟨hf, .inr (.clr hp)⟩
  | dec =>
    obtain ⟨hf, ⟨_, rfl⟩ | ⟨hp, hv, rfl⟩ | ⟨hp, hv, hl, hb, rfl⟩ | ⟨hp, hv, hl, hb, rfl⟩⟩ := execDec_cases h
    · exact ⟨hf, .inl ⟨_, rfl⟩⟩
    · exact ⟨hf, .inr (.noFrame hp hv)⟩
    · exact ⟨hf, .inr (.sensorBusy hp hv hl hb)⟩
    · exact ⟨hf, .inr (.decode hp hv hl hb)⟩
  | xw1 a => exact write_effect rfl h
  | xw2 a b => exact write_effect rfl h
  | xw3 a b c => exact write_effect rfl h
  | sensorReset => exact write_effect rfl h
  | sensorInit => exact write_effect rfl h
  | sensorMeasure => exact write_effect rfl h
  | xr1 => exact read_effect rfl h
  | xr2 => exact read_effect rfl h
  | xr3 => exact read_effect rfl h
  | xr4 => exact read_effect rfl h
  | xr5 => exact read_effect rfl h
  | xr6 => exact read_effect rfl h
  | readFrame => exact read_effect rfl h
  | delay ms =>
    obtain ⟨hf, rfl⟩ := execDelay_cases h
    exact ⟨hf, .inr .delay⟩
  | jf j =>
    obtain ⟨hf, ⟨_, rfl⟩ | ⟨_, _, rfl⟩ | ⟨hl, hv, ho, rfl⟩ | ⟨hl, hv, ho, rfl⟩⟩ := execJf_cases h
    · exact ⟨hf, .inl ⟨_, rfl⟩⟩
    · exact ⟨hf, .inl ⟨_, rfl⟩⟩
    · exact ⟨hf, .inr (.jump hl hv ho)⟩
    · exact ⟨hf, .inr (.fall hl hv ho)⟩
  | retFalse =>
    obtain ⟨hf, rfl⟩ := returnWith_cases h
    exact ⟨hf, .inr (.ret (by simp))⟩
  | retTrue =>
    obtain ⟨hf, rfl⟩ := returnWith_cases h
    exact ⟨hf, .inr (.ret (by simp))⟩
  | retVoid =>
    obtain ⟨hf, rfl⟩ := returnWith_cases h
    exact ⟨hf, .inr (.ret (by simp))⟩
  | addrW =>
    obtain ⟨hf, rfl⟩ := driveAddress_cases h
    exact ⟨hf, .inr (.addr (by simp))⟩
  | addrR =>
    obtain ⟨hf, rfl⟩ := driveAddress_cases h
    exact ⟨hf, .inr (.addr (by simp))⟩

/-- The state after one sample of flag f (R110). -/
abbrev sampledState (f : Flag) (s : State) : State := { s.afterSample f with cnt := s.cnt + 1#14 }

/-- What one XACT step can do (R110 to R130). -/
inductive XactEffect (s : State) : State → Prop
  | stay {p : Phase} {f : Flag} {v : Bool}
      (hm : (p, f, v) ∈ [(Phase.wBusy, Flag.busy, false), (.wAddr, .addrAck, true), (.wBtf, .btf, true),
        (.wRxne, .rxne, true)])
      (hp : s.phase = p) (hv : s.sampled f ≠ v) (hc : s.cnt + 1#14 ≠ s.pollLimit) :
      XactEffect s (sampledState f s)
  | address (hp : s.phase = .wBusy) (hv : s.sampled .busy = false) (hf : s.fault = none) :
      XactEffect s { ((sampledState .busy s).emit .start).emit (.addr (addrByte (decide (s.curOp = .xr)))) with
        phase := .wAddr, cnt := 0#14 }
  | busBusy (hp : s.phase = .wBusy) (hv : s.sampled .busy = true)
      (hc : s.cnt + 1#14 = s.pollLimit) :
      XactEffect s ((sampledState .busy s).complete .busBusyTimeout false)
  | firstTx (hp : s.phase = .wAddr) (hv : s.sampled .addrAck = true) (ho : s.curOp = .xw) :
      XactEffect s { (sampledState .addrAck s).emit (.tx (s.txByte 0)) with
        idx := some 0#3, phase := .wBtf, cnt := 0#14 }
  | firstAck (hp : s.phase = .wAddr) (hv : s.sampled .addrAck = true) (ho : s.curOp = .xr) :
      XactEffect s { (sampledState .addrAck s).emit (ackctl 0 s.curN) with
        idx := some 0#3, phase := .wRxne, cnt := 0#14 }
  | nextTx (hp : s.phase = .wBtf) (hv : s.sampled .btf = true) (hi : s.curIdx.toNat + 1 < s.curN) :
      XactEffect s { (sampledState .btf s).emit (.tx (s.txByte (s.curIdx.toNat + 1))) with
        idx := some (s.curIdx + 1#3), cnt := 0#14 }
  | lastTx (hp : s.phase = .wBtf) (hv : s.sampled .btf = true) (hi : ¬ s.curIdx.toNat + 1 < s.curN) :
      XactEffect s (((sampledState .btf s).emit .stop).complete .none true)
  | nextRx (hp : s.phase = .wRxne) (hv : s.sampled .rxne = true) (hi : s.curIdx.toNat + 1 < s.curN) :
      XactEffect s { (sampledState .rxne s).capture.emit (ackctl (s.curIdx.toNat + 1) s.curN) with
        idx := some (s.curIdx + 1#3), cnt := 0#14 }
  | lastRx (hp : s.phase = .wRxne) (hv : s.sampled .rxne = true) (hi : ¬ s.curIdx.toNat + 1 < s.curN) :
      XactEffect s ({ (sampledState .rxne s).capture.emit .stop with rxvalid := true }.complete .none true)
  | abort {p : Phase} {f : Flag} {c : Cause}
      (hm : (p, f, c) ∈ [(Phase.wAddr, Flag.addrAck, Cause.addrTimeout), (.wBtf, .btf, .btfTimeout),
        (.wRxne, .rxne, .rxneTimeout)])
      (hp : s.phase = p) (hv : s.sampled f = false) (hc : s.cnt + 1#14 = s.pollLimit) :
      XactEffect s ((sampledState f s).abort c)

theorem xactStep_cases (h : xactStep s = .next t) : XactEffect s t := by
  unfold xactStep at h
  split at h
  · cases h
  · rename_i hp
    obtain ⟨hv, h⟩ | ⟨hv, hc, h⟩ | ⟨hv, hc, rfl⟩ := pollStep_cases h
    · obtain ⟨hf, rfl⟩ := busyMet_cases h
      exact .address hp hv hf
    · obtain rfl : t = _ := by simpa [busyTimeout] using h.symm
      exact .busBusy hp (by simpa using hv) hc
    · exact .stay (v := false) (by simp) hp hv hc
  · rename_i hp
    obtain ⟨hv, h⟩ | ⟨hv, hc, h⟩ | ⟨hv, hc, rfl⟩ := pollStep_cases h
    · unfold addrMet at h
      split at h
      · rename_i ho
        cases h
        exact .firstTx hp hv ho
      · rename_i ho
        cases h
        exact .firstAck hp hv ho
    · cases h
      exact .abort (by simp) hp (by simpa using hv) hc
    · exact .stay (v := true) (by simp) hp hv hc
  · rename_i hp
    obtain ⟨hv, h⟩ | ⟨hv, hc, h⟩ | ⟨hv, hc, rfl⟩ := pollStep_cases h
    · unfold btfMet at h
      split at h
      · rename_i hi
        cases h
        exact .nextTx hp hv hi
      · rename_i hi
        cases h
        exact .lastTx hp hv hi
    · cases h
      exact .abort (by simp) hp (by simpa using hv) hc
    · exact .stay (v := true) (by simp) hp hv hc
  · rename_i hp
    obtain ⟨hv, h⟩ | ⟨hv, hc, h⟩ | ⟨hv, hc, rfl⟩ := pollStep_cases h
    · unfold rxneMet afterCapture at h
      split at h
      · rename_i hi
        cases h
        exact .nextRx hp hv hi
      · rename_i hi
        cases h
        exact .lastRx hp hv hi
    · cases h
      exact .abort (by simp) hp (by simpa using hv) hc
    · exact .stay (v := true) (by simp) hp hv hc

end Sys2Proof.Machine
end

