-- ==== Sys2Proof/Laws/PerInstr.lean ====
section
/-! SUPPORT. The family FitsWidth: an instruction's encoding lies within its width, and its expansion has the same
encoding, width and class (30_encoding.md R80, R87, R90). One lemma per constructor. -/

namespace Sys2Proof.Laws

/-- What the family says of an instruction, as syntax. -/
def FitsWidth.Statement (i : Instr) : Prop :=
  (encode i).toNat < 2 ^ i.width ∧ encode i.core = encode i ∧ i.core.width = i.width ∧ i.core.cls = i.cls

theorem FitsWidth.init : FitsWidth.Statement .init := ⟨(encode _).isLt, rfl, rfl, rfl⟩
theorem FitsWidth.clr : FitsWidth.Statement .clr := ⟨(encode _).isLt, rfl, rfl, rfl⟩
theorem FitsWidth.xw1 (b0 : Byte) : FitsWidth.Statement (.xw1 b0) := ⟨(encode _).isLt, rfl, rfl, rfl⟩
theorem FitsWidth.xw2 (b0 b1 : Byte) : FitsWidth.Statement (.xw2 b0 b1) := ⟨(encode _).isLt, rfl, rfl, rfl⟩
theorem FitsWidth.xw3 (b0 b1 b2 : Byte) : FitsWidth.Statement (.xw3 b0 b1 b2) := ⟨(encode _).isLt, rfl, rfl, rfl⟩
theorem FitsWidth.xr1 : FitsWidth.Statement .xr1 := ⟨(encode _).isLt, rfl, rfl, rfl⟩
theorem FitsWidth.xr2 : FitsWidth.Statement .xr2 := ⟨(encode _).isLt, rfl, rfl, rfl⟩
theorem FitsWidth.xr3 : FitsWidth.Statement .xr3 := ⟨(encode _).isLt, rfl, rfl, rfl⟩
theorem FitsWidth.xr4 : FitsWidth.Statement .xr4 := ⟨(encode _).isLt, rfl, rfl, rfl⟩
theorem FitsWidth.xr5 : FitsWidth.Statement .xr5 := ⟨(encode _).isLt, rfl, rfl, rfl⟩
theorem FitsWidth.xr6 : FitsWidth.Statement .xr6 := ⟨(encode _).isLt, rfl, rfl, rfl⟩
theorem FitsWidth.dec : FitsWidth.Statement .dec := ⟨(encode _).isLt, rfl, rfl, rfl⟩
theorem FitsWidth.delay (ms : BitVec 16) : FitsWidth.Statement (.delay ms) := ⟨(encode _).isLt, rfl, rfl, rfl⟩
theorem FitsWidth.jf (t : BitVec 16) : FitsWidth.Statement (.jf t) := ⟨(encode _).isLt, rfl, rfl, rfl⟩
theorem FitsWidth.retFalse : FitsWidth.Statement .retFalse := ⟨(encode _).isLt, rfl, rfl, rfl⟩
theorem FitsWidth.retTrue : FitsWidth.Statement .retTrue := ⟨(encode _).isLt, rfl, rfl, rfl⟩
theorem FitsWidth.retVoid : FitsWidth.Statement .retVoid := ⟨(encode _).isLt, rfl, rfl, rfl⟩
theorem FitsWidth.sensorReset : FitsWidth.Statement .sensorReset := ⟨(encode _).isLt, rfl, rfl, rfl⟩
theorem FitsWidth.sensorInit : FitsWidth.Statement .sensorInit := ⟨(encode _).isLt, rfl, rfl, rfl⟩
theorem FitsWidth.sensorMeasure : FitsWidth.Statement .sensorMeasure := ⟨(encode _).isLt, rfl, rfl, rfl⟩
theorem FitsWidth.readFrame : FitsWidth.Statement .readFrame := ⟨(encode _).isLt, rfl, rfl, rfl⟩
theorem FitsWidth.addrW : FitsWidth.Statement .addrW := ⟨by decide, rfl, rfl, rfl⟩
theorem FitsWidth.addrR : FitsWidth.Statement .addrR := ⟨by decide, rfl, rfl, rfl⟩

end Sys2Proof.Laws
end

