-- ==== Sys2Proof/Laws/StepEffect.lean ====
section
/-! SUPPORT. What a step of the machine can do, said once: it raises a fault and writes nothing else, or one
agent has its effect and the turn is off the list. -/

namespace Sys2Proof.Machine

variable {s t : State}

/-- No XACT step raises a fault (R204). -/
theorem XactEffect.fault_eq (h : XactEffect s t) : t.fault = s.fault := by
  cases h <;> simp [State.afterSample]

/-- An instruction's own effect sets no fault. -/
theorem Effect.fault_eq {i : Instr} (h : Effect s i t) : t.fault = s.fault := by
  cases h <;> simp

/-- A CMD write raises a fault or has the effect of the command its word decodes to (R101). -/
theorem cmdWrite_effect {w : Word} (h : cmdWrite w s = .next t) :
    s.fault = none ∧ ((∃ c, t = { s with fault := some c }) ∨
      (∃ i, decodeWord w = .ok i ∧ i.cls = .command ∧ Effect s i t)) := by
  obtain ⟨hf, ⟨_, rfl⟩ | ⟨_, _, rfl⟩ | ⟨_, i, hd, hc, h⟩⟩ := cmdWrite_cases h
  · exact ⟨hf, .inl ⟨_, rfl⟩⟩
  · exact ⟨hf, .inl ⟨_, rfl⟩⟩
  · obtain ⟨_, h | h⟩ := exec_cases h
    · exact ⟨hf, .inl h⟩
    · exact ⟨hf, .inr ⟨i, hd, hc, h⟩⟩

/-- A word with a host OP decodes to a host word if to anything (R78). -/
theorem cls_of_hostWord {w : Word} {i : Instr} (hd : decodeWord w = .ok i)
    (hk : hostWordKind w = .hostWord) : i.cls = .hostWord := by
  unfold hostWordKind at hk
  unfold decodeWord at hd
  split at hk <;> simp at hk
  all_goals
    rename_i ho
    simp only [ho, guardZero, decodeRet] at hd
    repeat' split at hd
    all_goals (first | (cases hd; rfl) | cases hd)

/-- What a step of the HOST's sequence can do, apart from raising a fault. -/
inductive SeqEffect (s : State) : State → Prop
  | cmd {w : Word} {i : Instr} {u : State} (hm : s.hmode = .run) (hw : s.wordAtHpc = some w)
      (hd : decodeWord w = .ok i) (hc : i.cls = .command) (he : Effect s i u) :
      SeqEffect s { u with hmode := .wait }
  | host {w : Word} {i : Instr} {u : State} (hm : s.hmode = .run) (hw : s.wordAtHpc = some w)
      (hd : decodeWord w = .ok i) (hc : i.cls = .hostWord) (he : Effect s i u) : SeqEffect s u
  | wait (hm : s.hmode = .wait) (hp : s.phase = .idle) :
      SeqEffect s { s.nextWord with hmode := .run }

theorem SeqEffect.fault_none (h : SeqEffect s t) (hs : s.fault = none) : t.fault = none := by
  cases h with
  | cmd _ _ _ _ he => exact he.fault_eq.trans hs
  | host _ _ _ _ he => rw [he.fault_eq, hs]
  | wait => exact hs

theorem seqStep_effect (_hf : s.fault = none) (h : seqStep s = .next t) :
    (∃ c, t = { s with fault := some c }) ∨ SeqEffect s t := by
  obtain ⟨_, _, rfl⟩ | ⟨hm, w, hw, h⟩ | ⟨hm, hp, rfl⟩ := seqStep_cases h
  · exact .inl ⟨_, rfl⟩
  · obtain ⟨hk, h⟩ | ⟨hk, i, hd, h⟩ | ⟨_, rfl⟩ := hostWord_cases h
    · obtain ⟨u, hu, ⟨hfu, rfl⟩ | ⟨hfu, rfl⟩⟩ := thenWait_cases h
      · obtain ⟨_, ⟨c, rfl⟩ | ⟨i, hd, hc, he⟩⟩ := cmdWrite_effect hu
        · simp at hfu
        · exact .inr (.cmd hm hw hd hc he)
      · obtain ⟨_, ⟨c, rfl⟩ | ⟨i, hd, hc, he⟩⟩ := cmdWrite_effect hu
        · exact .inl ⟨_, rfl⟩
        · rw [he.fault_eq] at hfu
          contradiction
    · obtain ⟨_, h | h⟩ := exec_cases h
      · exact .inl h
      · exact .inr (.host hm hw hd (cls_of_hostWord hd hk) h)
    · exact .inl ⟨_, rfl⟩
  · exact .inr (.wait hm hp)

/-- What a step of the machine can do; r is the turns that stay listed. -/
inductive StepEffect (s : State) : State → Prop
  | fault (c : FaultCode) : StepEffect s { s with fault := some c }
  | xact {u : State} {r : List Turn} (hp : s.phase ≠ .idle) (he : XactEffect s u) :
      StepEffect s { u with turns := r }
  | seq {u : State} {r : List Turn} (he : SeqEffect s u) : StepEffect s { u with turns := r }
  | read {v : Word} {r : List Turn} : StepEffect s { s with readData := some v, turns := r }
  | cmd {w : Word} {i : Instr} {u : State} {r : List Turn} (hw : Turn.write regCmd w ∈ s.turns)
      (hd : decodeWord w = .ok i) (hc : i.cls = .command) (he : Effect s i u) :
      StepEffect s { u with turns := r }

/-- A turn whose agent faulted writes nothing but FAULT; otherwise the turn is taken off the list. -/
theorem turn_effect {r : List Turn} {o : Result} (h : thenTurns r o = .next t)
    (ho : ∀ u, o = .next u → (∃ c, u = { s with fault := some c }) ∨
      (u.fault = none ∧ StepEffect s { u with turns := r })) : StepEffect s t := by
  obtain ⟨u, hu, ⟨hfu, rfl⟩ | ⟨hfu, rfl⟩⟩ := thenTurns_cases h
  · obtain ⟨c, rfl⟩ | ⟨_, h⟩ := ho u hu
    · simp at hfu
    · exact h
  · obtain ⟨c, rfl⟩ | ⟨h, _⟩ := ho t hu
    · exact .fault c
    · contradiction

theorem xact_effect {r : List Turn} (hf : s.fault = none) (hp : s.phase ≠ .idle)
    (h : thenTurns r (xactStep s) = .next t) : StepEffect s t :=
  turn_effect h fun _ hu =>
    .inr ⟨(xactStep_cases hu).fault_eq.trans hf, .xact hp (xactStep_cases hu)⟩

theorem seq_effect {r : List Turn} (hf : s.fault = none) (h : thenTurns r (seqStep s) = .next t) :
    StepEffect s t :=
  turn_effect h fun _ hu => (seqStep_effect hf hu).imp id fun h => ⟨h.fault_none hf, .seq h⟩

theorem read_turn_effect {a : BitVec 8} {r : List Turn} (h : thenTurns r (regRead a s) = .next t) :
    StepEffect s t := by
  refine turn_effect h fun u hu => ?_
  obtain ⟨hf, ⟨v, _, rfl⟩ | ⟨_, rfl⟩⟩ := regRead_cases hu
  · exact .inr ⟨hf, .read⟩
  · exact .inl ⟨_, rfl⟩

theorem write_turn_effect {a : BitVec 8} {w : Word} {r : List Turn} (hw : Turn.write a w ∈ s.turns)
    (h : thenTurns r (regWrite a w s) = .next t) : StepEffect s t := by
  refine turn_effect h fun u hu => ?_
  obtain ⟨hf, ⟨rfl, hc⟩ | ⟨_, rfl⟩⟩ := regWrite_cases hu
  · obtain ⟨_, h | ⟨i, hd, hc, he⟩⟩ := cmdWrite_effect hc
    · exact .inl h
    · exact .inr ⟨he.fault_eq.trans hf, .cmd hw hd hc he⟩
  · exact .inl ⟨_, rfl⟩

/-- A step raises a fault or has one agent's effect. -/
theorem step_effect (h : step s = .next t) : s.fault = none ∧ StepEffect s t := by
  obtain ⟨hf, h⟩ := whileRunning_cases h
  refine ⟨hf, ?_⟩
  suffices ∀ l, (∀ a ∈ l, a ∈ s.turns) → takeTurns l s = .next t → StepEffect s t from
    this _ (fun _ h => h) h
  intro l hl h
  induction l with
  | nil =>
    unfold takeTurns autoStep at h
    split at h
    · rename_i hx
      exact xact_effect hf (by simpa [State.xactEnabled, State.idleBit] using hx) h
    · exact seq_effect hf h
  | cons a l ih =>
    have hl' : ∀ b ∈ l, b ∈ s.turns := fun b hb => hl b (List.mem_cons_of_mem _ hb)
    cases a with
    | xact =>
      unfold takeTurns at h
      split at h
      · rename_i hx
        exact xact_effect hf (by simpa [State.xactEnabled, State.idleBit] using hx) h
      · exact ih hl' h
    | seq =>
      unfold takeTurns at h
      split at h
      · exact seq_effect hf h
      · exact ih hl' h
    | read r => exact read_turn_effect h
    | write r w => exact write_turn_effect (hl _ List.mem_cons_self) h

theorem StepEffect.fault_cases (h : StepEffect s t) (hs : s.fault = none) :
    (∃ c, t = { s with fault := some c }) ∨ t.fault = none := by
  cases h with
  | fault c => exact .inl ⟨c, rfl⟩
  | xact _ he => exact .inr (he.fault_eq.trans hs)
  | seq he => exact .inr (he.fault_none hs)
  | read => exact .inr hs
  | cmd _ _ _ he => exact .inr (he.fault_eq.trans hs)

end Sys2Proof.Machine
end

