-- ==== Sys2Proof/Tests/Slice0.lean ====
section
/-! SUPPORT. Tests. Every expected result is taken from spec/: the encoding tables of 30_encoding.md, the
sequences of 45_host_sequences.md and the vectors of 95_test_vectors.md (named by their numbers: D-1, W-1 ...). -/

namespace Sys2Proof.Tests

open Sys2Proof.Machine

/-- The next state of an answer. -/
def nextOf (o : Result) : Option State :=
  match o with
  | .next t => some t
  | .fault _ => none
  | .refused _ => none

/-- After INIT, idle. -/
def ready : State := { State.reset with initd := true }

/-- In ready, with a frame captured by XR 6. -/
def withFrame (f : Frame) : State :=
  { ready with
    rxvalid := true, rxlen := 6#3, rxbuf := #v[some f[0], some f[1], some f[2], some f[3], some f[4], some f[5]] }

/-- XW 0xBA running, in phase p with c samples taken, ENV's next choices known. -/
def writing (p : Phase) (c : BitVec 14) (env : List Byte) : State :=
  { ready with
    phase := p, op := some .xw, n := some 1#3, idx := some 0#3, cnt := c, txbuf := payload 0xBA#8 0#8 0#8,
    envInput := env }

/-- XW 0xAC, 0x33, 0x00 running, at byte i. -/
def writing3 (p : Phase) (i : BitVec 3) (c : BitVec 14) (env : List Byte) : State :=
  { ready with
    phase := p, op := some .xw, n := some 3#3, idx := some i, cnt := c,
    txbuf := payload 0xAC#8 0x33#8 0x00#8, envInput := env }

/-- XR n running, at byte i, the bytes before it captured. -/
def reading (n : BitVec 3) (p : Phase) (i : BitVec 3) (c : BitVec 14) (env : List Byte) : State :=
  { ready with
    phase := p, op := some .xr, n := some n, idx := some i, cnt := c, rxlen := n,
    rxbuf := #v[some 0x01#8, some 0x02#8, some 0x03#8, none, none, none], envInput := env }

/-- At word k of a sequence. -/
def atWord (prog : List Word) (k : BitVec 16) (s : State) : State := { s with prog := prog, hpc := k }

/-- CLR at index 0. -/
def fetching0 : State := atWord [0x20000000#32] 0#16 ready

/-! ## Well-formedness: an ill-formed term for each check -/

/-- R78: t < length of the sequence. -/
theorem test_wf_jf_target : Instr.wellFormedIn 9 (.jf 9#16) = false ∧ Instr.wellFormedIn 10 (.jf 9#16) = true := by
  decide

/-- R80: an address byte is no word. -/
theorem test_wf_address_bytes : Instr.wellFormedIn 9 .addrW = false ∧ Instr.wellFormedIn 9 .addrR = false := by
  decide

theorem test_wf_bad_jump_in_sequence : sequenceWellFormed [.dec, .jf 2#16] = false := by decide

/-- R160: at most 2^16 words. -/
theorem test_wf_too_long : sequenceWellFormed (List.replicate 65537 .dec) = false := by
  have h : decide ((List.replicate 65537 Instr.dec).length ≤ maxSequence) = false := by
    rw [List.length_replicate]
    decide
  rw [sequenceWellFormed, h, Bool.false_and]

theorem test_wf_sensor_sequences :
    sequenceWellFormed seqBegin = true ∧ sequenceWellFormed seqReset = true ∧ sequenceWellFormed seqRead = true := by
  decide

/-! ## Decoding: words written out field by field from R70 to R80 -/

/-- OP = 1, bits 27:0 = 0 (R72). -/
theorem test_decode_init : decodeWord (0b0001#4 ++ 0#28) = .ok .init := by decide
/-- OP = 2 (R73). -/
theorem test_decode_clr : decodeWord (0b0010#4 ++ 0#28) = .ok .clr := by decide
/-- OP = 5 (R76). -/
theorem test_decode_dec : decodeWord (0b0101#4 ++ 0#28) = .ok .dec := by decide
/-- OP = 3, N = 1, B0 in 23:16, bits 15:0 = 0 (R74). -/
theorem test_decode_xw1 :
    decodeWord (0b0011#4 ++ 0b0001#4 ++ 0b10000001#8 ++ 0#16) = .ok (.xw1 0x81#8) := by decide
/-- OP = 3, N = 2, B0 in 23:16, B1 in 15:8, bits 7:0 = 0 (R74). -/
theorem test_decode_xw2 :
    decodeWord (0b0011#4 ++ 0b0010#4 ++ 0b10000001#8 ++ 0b01000010#8 ++ 0#8) = .ok (.xw2 0x81#8 0x42#8) := by decide
/-- OP = 3, N = 3, B0, B1, B2 (R74). -/
theorem test_decode_xw3 :
    decodeWord (0b0011#4 ++ 0b0011#4 ++ 0b10000001#8 ++ 0b01000010#8 ++ 0b00100100#8) =
      .ok (.xw3 0x81#8 0x42#8 0x24#8) := by decide
/-- OP = 4, N in 27:24, bits 23:0 = 0 (R75). -/
theorem test_decode_xr :
    decodeWord (0b0100#4 ++ 0b0001#4 ++ 0#24) = .ok .xr1 ∧ decodeWord (0b0100#4 ++ 0b0010#4 ++ 0#24) = .ok .xr2 ∧
    decodeWord (0b0100#4 ++ 0b0011#4 ++ 0#24) = .ok .xr3 ∧ decodeWord (0b0100#4 ++ 0b0100#4 ++ 0#24) = .ok .xr4 ∧
    decodeWord (0b0100#4 ++ 0b0101#4 ++ 0#24) = .ok .xr5 ∧ decodeWord (0b0100#4 ++ 0b0110#4 ++ 0#24) = .ok .xr6 := by
  decide
/-- OP = 8, bits 27:16 = 0, ms in 15:0 (R78). -/
theorem test_decode_delay :
    decodeWord (0b1000#4 ++ 0#12 ++ 0b1000000000010100#16) = .ok (.delay 0x8014#16) := by decide
/-- OP = 9, bits 27:16 = 0, t in 15:0 (R78). -/
theorem test_decode_jf :
    decodeWord (0b1001#4 ++ 0#12 ++ 0b1000000000001001#16) = .ok (.jf 0x8009#16) := by decide
/-- OP = 10, bits 27:2 = 0, v in 1:0: 0 FALSE, 1 TRUE, 2 VOID (R78). -/
theorem test_decode_ret :
    decodeWord (0b1010#4 ++ 0#26 ++ 0b00#2) = .ok .retFalse ∧ decodeWord (0b1010#4 ++ 0#26 ++ 0b01#2) = .ok .retTrue ∧
    decodeWord (0b1010#4 ++ 0#26 ++ 0b10#2) = .ok .retVoid := by decide
/-- The pseudo-instructions' words of R90 are their core instructions'. -/
theorem test_decode_pseudo :
    decodeWord 0x31BA0000#32 = .ok (.xw1 0xBA#8) ∧ decodeWord 0x33E10800#32 = .ok (.xw3 0xE1#8 0x08#8 0x00#8) ∧
    decodeWord 0x33AC3300#32 = .ok (.xw3 0xAC#8 0x33#8 0x00#8) ∧ decodeWord 0x46000000#32 = .ok .xr6 ∧
    encode .sensorReset = 0x31BA0000#32 ∧ encode .sensorInit = 0x33E10800#32 ∧
    encode .sensorMeasure = 0x33AC3300#32 ∧ encode .readFrame = 0x46000000#32 := by decide
/-- TARGET_ADDR = 0x38 in bits 7:1, the direction in bit 0: 0x70 writes, 0x71 reads (R80). -/
theorem test_decode_address :
    decodeAddr (0b0111000#7 ++ 0b0#1) = .ok .addrW ∧ decodeAddr (0b0111000#7 ++ 0b1#1) = .ok .addrR ∧
    decodeAddr 0x72#8 = .error .notTargetAddr ∧ decodeAddr 0xF0#8 = .error .notTargetAddr := by decide
/-- The illegal words of 95_test_vectors.md sections 2.3 and 2.4: N, and bytes beyond N. -/
theorem test_decode_bad_counts :
    decodeWord 0x30000000#32 = .error .badCount ∧ decodeWord 0x34000000#32 = .error .badCount ∧
    decodeWord 0x31BA0001#32 = .error .nonzeroField ∧ decodeWord 0x32E10801#32 = .error .nonzeroField ∧
    decodeWord 0x40000000#32 = .error .badCount ∧ decodeWord 0x47000000#32 = .error .badCount ∧
    decodeWord 0x46000001#32 = .error .nonzeroField := by decide
/-- Section 2.5 and H-3, H-10 to H-12. -/
theorem test_decode_reserved :
    decodeWord 0x00000000#32 = .error .reservedOp ∧ decodeWord 0x60000000#32 = .error .reservedOp ∧
    decodeWord 0x70000000#32 = .error .reservedOp ∧ decodeWord 0xB0000000#32 = .error .reservedOp ∧
    decodeWord 0xFFFFFFFF#32 = .error .reservedOp ∧ decodeWord 0x10000001#32 = .error .nonzeroField ∧
    decodeWord 0x20000100#32 = .error .nonzeroField ∧ decodeWord 0x50000006#32 = .error .nonzeroField ∧
    decodeWord 0x80010000#32 = .error .nonzeroField ∧ decodeWord 0xA0000003#32 = .error .badRetValue ∧
    decodeWord 0xA0000005#32 = .error .nonzeroField := by decide
/-- The table's numbering: a word in 32 bits, a wire byte in 8. -/
theorem test_decode_table_word :
    decodeTableWord 32 0x31000000 = some (.xw1 0#8) ∧ decodeTableWord 32 0x80000014 = some (.delay 20#16) ∧
    decodeTableWord 8 0x70 = some .addrW ∧ decodeTableWord 8 0x71 = some .addrR ∧
    decodeTableWord 32 0x00000000 = none ∧ decodeTableWord 8 0x72 = none := by decide

/-! ## The sequences and the assembler -/

/-- R170, P1. -/
theorem test_words_begin :
    sequenceWords seqBegin =
      [0x10000000#32, 0x20000000#32, 0x31BA0000#32, 0x90000009#32, 0x80000014#32, 0x33E10800#32, 0x90000009#32,
        0x8000000A#32, 0xA0000001#32, 0xA0000000#32] := by decide
/-- R171, P5. -/
theorem test_words_reset : sequenceWords seqReset = [0x31BA0000#32, 0x80000014#32, 0xA0000002#32] := by decide
/-- R172, P2. -/
theorem test_words_read :
    sequenceWords seqRead =
      [0x33AC3300#32, 0x90000008#32, 0x80000050#32, 0x46000000#32, 0x90000008#32, 0x50000000#32, 0x90000008#32,
        0xA0000001#32, 0xA0000000#32] := by decide
/-- P6's text, a label and a comment included (R89). -/
theorem test_assemble_p6 :
    assembleText
      [['C', 'L', 'R', ' ', ';', ' ', '0'], ['D', 'E', 'C'], ['J', 'F', ' ', 'f', 'a', 'i', 'l'],
        ['R', 'E', 'T', ' ', 'T', 'R', 'U', 'E'],
        ['f', 'a', 'i', 'l', ':', ' ', 'R', 'E', 'T', ' ', 'F', 'A', 'L', 'S', 'E']] =
      some [0x20000000#32, 0x50000000#32, 0x90000004#32, 0xA0000001#32, 0xA0000000#32] := by decide
/-- R89: decimal and hex operands; an operand that does not fit is refused. -/
theorem test_assemble_operands :
    assembleText [['X', 'W', ' ', '0', 'x', 'A', 'C', ',', ' ', '5', '1', ',', '0']] = some [0x33AC3300#32] ∧
    assembleText [['D', 'E', 'L', 'A', 'Y', ' ', '6', '5', '5', '3', '5']] = some [0x8000FFFF#32] ∧
    assembleText [['D', 'E', 'L', 'A', 'Y', ' ', '6', '5', '5', '3', '6']] = none ∧
    assembleText [['X', 'W', ' ', '2', '5', '6']] = none ∧ assembleText [['X', 'R', ' ', '7']] = none := by decide

/-! ## The decoder -/

/-- D-1 to D-5. -/
theorem test_frames_a :
    decodeFrame .exact #v[0x00, 0x19, 0x99, 0x9A, 0x66, 0x66] = .pair 799 99 ∧
    decodeFrame .exact #v[0x1C, 0x80, 0x00, 0x05, 0x00, 0x00] = .pair 125 500 ∧
    decodeFrame .exact #v[0x7F, 0x80, 0x00, 0x05, 0x00, 0x00] = .pair 125 500 ∧
    decodeFrame .exact #v[0x00, 0x00, 0x00, 0x00, 0x00, 0x00] = .pair (-500) 0 ∧
    decodeFrame .exact #v[0x00, 0xFF, 0xFF, 0xFF, 0xFF, 0xFF] = .pair 1499 999 := by decide
/-- D-6 to D-14, truncation toward zero among them. -/
theorem test_frames_b :
    decodeFrame .exact #v[0x00, 0x00, 0x00, 0x00, 0x00, 0x01] = .pair (-499) 0 ∧
    decodeFrame .exact #v[0x00, 0x00, 0x00, 0x00, 0x40, 0x00] = .pair (-468) 0 ∧
    decodeFrame .exact #v[0x00, 0x00, 0x00, 0x03, 0xFE, 0xF4] = .pair 0 0 ∧
    decodeFrame .exact #v[0x00, 0x00, 0x00, 0x03, 0xFF, 0xFF] = .pair 0 0 ∧
    decodeFrame .exact #v[0x00, 0x00, 0x00, 0x04, 0x00, 0x00] = .pair 0 0 ∧
    decodeFrame .exact #v[0x00, 0x80, 0x00, 0x00, 0x00, 0x00] = .pair (-500) 500 ∧
    decodeFrame .exact #v[0x00, 0x40, 0x00, 0x08, 0x00, 0x00] = .pair 500 250 ∧
    decodeFrame .exact #v[0x80, 0x19, 0x99, 0x9A, 0x66, 0x66] = .busy ∧
    decodeFrame .exact #v[0xFF, 0xFF, 0xFF, 0xFF, 0xFF, 0xFF] = .busy := by decide
/-- The raw corners of section 2.1 under EXACT. -/
theorem test_corners_exact :
    humX10 .exact 16384#20 = 15 ∧ humX10 .exact 30933#20 = 29 ∧ tempX10 .exact 30933#20 = -440 ∧
    humX10 .exact 165675#20 = 157 ∧ tempX10 .exact 165675#20 = -184 ∧ tempX10 .exact 261619#20 = -1 ∧
    tempX10 .exact 261620#20 = 0 ∧ humX10 .exact 786432#20 = 750 ∧ tempX10 .exact 786432#20 = 1000 := by decide
/-- The same under BINARY32: only two entries differ. -/
theorem test_corners_binary32 :
    humX10 .binary32 16384#20 = 15 ∧ humX10 .binary32 30933#20 = 29 ∧ tempX10 .binary32 30933#20 = -441 ∧
    humX10 .binary32 165675#20 = 158 ∧ tempX10 .binary32 165675#20 = -184 ∧ tempX10 .binary32 261619#20 = -1 ∧
    tempX10 .binary32 261620#20 = 0 ∧ humX10 .binary32 786432#20 = 750 ∧ tempX10 .binary32 786432#20 = 1000 ∧
    decodeFrame .binary32 #v[0x00, 0x19, 0x99, 0x9A, 0x66, 0x66] = .pair 799 99 := by decide
/-- V1.5: enc. -/
theorem test_enc :
    encHum 0 = 0 ∧ encHum 1 = 1049 ∧ encHum 99 = 103810 ∧ encHum 500 = 524288 ∧ encHum 999 = 1047528 := by decide

/-! ## One step or one instruction -/

/-- D-1 as a DEC. -/
theorem test_dec_commits :
    (nextOf (exec .dec (withFrame #v[0x00, 0x19, 0x99, 0x9A, 0x66, 0x66]))).map
      (fun t => (t.tempX10, t.humX10, t.status, t.cause)) = some (799#16, 99#16, 0xF#32, .none) := by decide
/-- D-13 as a DEC: the handle keeps its values. -/
theorem test_dec_busy :
    (nextOf (exec .dec { withFrame #v[0x80, 0x19, 0x99, 0x9A, 0x66, 0x66] with tempX10 := 7#16, humX10 := 8#16 })).map
      (fun t => (t.tempX10, t.humX10, t.status, t.cause)) = some (7#16, 8#16, 0xB#32, .sensorBusy) := by decide
/-- R144: the raw values 165675 and 30933 under each DECODE_NUMERICS. -/
theorem test_dec_numerics :
    (nextOf (exec .dec { withFrame #v[0x00, 0x28, 0x72, 0xB0, 0x78, 0xD5] with numerics := .binary32 })).map
      (fun t => (t.tempX10.toInt, t.humX10.toInt)) = some (-441, 158) ∧
    (nextOf (exec .dec { withFrame #v[0x00, 0x28, 0x72, 0xB0, 0x78, 0xD5] with numerics := .exact })).map
      (fun t => (t.tempX10.toInt, t.humX10.toInt)) = some (-440, 157) := by decide
/-- C-2. -/
theorem test_clr :
    (nextOf (exec .clr { ready with tempX10 := 799#16, humX10 := 99#16 })).map
      (fun t => (t.tempX10, t.humX10, t.status)) = some (0#16, 0#16, 0xF#32) := by decide
/-- C-1: without INIT. -/
theorem test_clr_reset :
    (nextOf (exec .clr State.reset)).map (fun t => (t.status, t.h)) = some (0x7#32, []) := by decide
/-- I-1. -/
theorem test_init :
    (nextOf (exec .init State.reset)).map (fun t => (t.status, t.h)) = some (0xF#32, [.busInit]) := by decide
/-- I-2. -/
theorem test_init_again : (nextOf (exec .init ready)).map State.fault = some (some .reinit) := by decide
/-- W-1's issue step: STATUS 0x8 while the command runs; B1 is copied too (R55). -/
theorem test_xw1_issue :
    (nextOf (exec (.xw1 0xBA#8) ready)).map (fun t => (t.status, t.op, t.n, t.txbuf[1])) =
      some (0x8#32, some .xw, some 1#3, some 0x00#8) := by decide
/-- WF-1. -/
theorem test_xw1_not_init : (nextOf (exec (.xw1 0xBA#8) State.reset)).map State.fault = some (some .notInit) := by
  decide
theorem test_xw2_issue :
    (nextOf (exec (.xw2 0xE1#8 0x08#8) ready)).map (fun t => (t.n, t.txbuf)) =
      some (some 2#3, #v[some 0xE1#8, some 0x08#8, some 0x00#8]) := by decide
theorem test_xw3_issue :
    (nextOf (exec (.xw3 0xAC#8 0x33#8 0x00#8) ready)).map (fun t => (t.n, t.txbuf)) =
      some (some 3#3, #v[some 0xAC#8, some 0x33#8, some 0x00#8]) := by decide
/-- X-2's issue step: RXVALID 0, RXLEN 6. -/
theorem test_xr6_issue :
    (nextOf (exec .xr6 (withFrame #v[0, 0, 0, 0, 0, 0]))).map (fun t => (t.rxvalid, t.rxlen, t.op, t.n)) =
      some (false, 6#3, some .xr, some 6#3) := by decide
theorem test_xr1_issue :
    (nextOf (exec .xr1 ready)).map (fun t => (t.rxlen, t.phase, t.status)) = some (1#3, .wBusy, 0x8#32) := by decide
/-- H-1. -/
theorem test_delay :
    (nextOf (step (atWord (sequenceWords seqBegin) 4 ready))).map (fun t => (t.h, t.hpc)) =
      some ([.delay 20#16], 5#16) := by decide
/-- H-4 and H-5. -/
theorem test_jf :
    (nextOf (step (atWord (sequenceWords seqBegin) 3 { ready with okv := true }))).map State.hpc = some 9 ∧
    (nextOf (step (atWord (sequenceWords seqBegin) 3 { ready with okv := true, ok := true }))).map State.hpc =
      some 4 := by decide
/-- H-6 and H-7: the target is checked first. -/
theorem test_jf_faults :
    (nextOf (step (atWord (sequenceWords seqBegin) 3 ready))).map State.fault = some (some .hNoResult) ∧
    (nextOf (step (atWord [0x9000000A#32, 0, 0, 0, 0, 0, 0, 0, 0, 0] 0 ready))).map State.fault =
      some (some .hBadTarget) := by decide
/-- R160, R161: HPC does not wrap after index 0xFFFF; the fetch there raises H_PC_END. -/
theorem test_hpc_end :
    (nextOf (exec (.delay 0#16) { ready with hpc := 0xFFFF#16 })).map State.hpcPast = some true ∧
    (nextOf (step { fetching0 with hpcPast := true })).map State.fault = some (some .hPcEnd) := by decide
/-- H-8 and H-9. -/
theorem test_ret :
    (nextOf (step (atWord [0xA0000001#32] 0 ready))).map (fun t => (t.hret, t.hmode)) =
      some (some .boolTrue, .halt) ∧
    (nextOf (step (atWord [0xA0000002#32] 0 ready))).map (fun t => (t.hret, t.hmode)) =
      some (some .void, .halt) := by decide
/-- H-13 and H-14. -/
theorem test_fetch_faults :
    (nextOf (step (atWord [0x20000000#32] 1 ready))).map State.fault = some (some .hPcEnd) ∧
    (nextOf (step (atWord [0x34000000#32] 0 ready))).map State.fault = some (some .illegalCmd) := by decide
/-- W-1's first step: the polled 0, START and 0x70. -/
theorem test_xact_busy_met :
    (nextOf (step (writing .wBusy 0#14 [0x00#8]))).map (fun t => (t.h, t.phase)) =
      some ([.poll .busy false, .start, .addr 0x70#8], .wAddr) := by decide
/-- W-4's last step. -/
theorem test_xact_busy_timeout :
    (nextOf (step (writing .wBusy 9999#14 [0x01#8]))).map (fun t => (t.h, t.status, t.cause)) =
      some ([.poll .busy true], 0xB#32, .busBusyTimeout) := by decide
/-- R6, R110: the POLL_LIMIT-th unmet sample is the timeout, whatever POLL_LIMIT is. -/
theorem test_xact_poll_limit :
    (nextOf (step { writing .wBusy 1#14 [0x01#8] with pollLimit := 3#14 })).map (fun t => (t.phase, t.cause)) =
      some (.wBusy, .none) ∧
    (nextOf (step { writing .wBusy 2#14 [0x01#8] with pollLimit := 3#14 })).map (fun t => (t.phase, t.cause)) =
      some (.idle, .busBusyTimeout) := by decide
/-- W-3's step after the first BTF. -/
theorem test_xact_next_byte :
    (nextOf (step (writing3 .wBtf 0#3 5#14 [0x01#8]))).map (fun t => (t.h, t.idx, t.cnt)) =
      some ([.poll .btf true, .tx 0x33#8], some 1#3, 0#14) := by decide
/-- W-9 and W-6's ending: STOP is drawn or not. -/
theorem test_xact_abort :
    (nextOf (step (writing .wBtf 9999#14 [0x00#8, 0x01#8]))).map (fun t => (t.h, t.ok, t.cause)) =
      some ([.poll .btf false, .stop], false, .btfTimeout) ∧
    (nextOf (step (writing .wAddr 9999#14 [0x00#8, 0x00#8]))).map (fun t => (t.h, t.ok, t.cause)) =
      some ([.poll .addrAck false], false, .addrTimeout) := by decide
/-- X-3's acknowledge settings: ACK before a byte that is not the last, NACK before the last. -/
theorem test_xact_ackctl :
    (nextOf (step (reading 2#3 .wAddr 0#3 0#14 [0x01#8]))).map State.h =
      some [.poll .addrAck true, .ack] ∧
    (nextOf (step (reading 2#3 .wRxne 0#3 0#14 [0x01#8, 0x11#8]))).map State.h =
      some [.poll .rxne true, .rx 0x11#8, .nack] := by decide
/-- X-1's last step. -/
theorem test_xact_last_byte :
    (nextOf (step (reading 1#3 .wRxne 0#3 0#14 [0x01#8, 0x5A#8]))).map
      (fun t => (t.h, t.rxbuf[0], t.rxvalid, t.status)) =
      some ([.poll .rxne true, .rx 0x5A#8, .stop], some 0x5A#8, true, 0xF#32) := by decide
/-- A-1 to A-6. -/
theorem test_register_reads :
    State.reset.readReg 1#8 = some 0x00000001#32 ∧ State.reset.readReg 2#8 = some 0#32 ∧
    { ready with tempX10 := BitVec.ofInt 16 (-468) }.readReg 2#8 = some 0xFFFFFE2C#32 ∧
    { ready with tempX10 := BitVec.ofInt 16 (-500) }.readReg 2#8 = some 0xFFFFFE0C#32 ∧
    { ready with tempX10 := 1499#16 }.readReg 2#8 = some 0x000005DB#32 ∧
    { ready with humX10 := 999#16 }.readReg 3#8 = some 0x000003E7#32 := by decide
/-- A-7 to A-9. -/
theorem test_register_faults :
    (nextOf (step { ready with turns := [.read 0#8] })).map State.fault = some (some .badAccess) ∧
    (nextOf (step { ready with turns := [.write 1#8 0#32] })).map State.fault = some (some .badAccess) ∧
    (nextOf (step { ready with turns := [.read 0xFF#8] })).map State.fault = some (some .badAccess) := by decide
/-- A-10: a read while a transaction runs. -/
theorem test_register_read_while_running :
    (nextOf (step { writing .wBtf 3#14 [] with tempX10 := 7#16, turns := [.read 2#8] })).map
      (fun t => (t.readData, t.fault, t.phase)) = some (some 7#32, none, .wBtf) := by decide
/-- WF-6 and WF-7: the order of the checks. -/
theorem test_cmd_priority :
    (nextOf (cmdWrite 0x34000000#32 State.reset)).map State.fault = some (some .illegalCmd) ∧
    (nextOf (cmdWrite 0x00000000#32 (writing .wBtf 0#14 []))).map State.fault = some (some .overlap) ∧
    (nextOf (cmdWrite 0x80000014#32 ready)).map State.fault = some (some .illegalCmd) := by decide
/-- The host's placing: a word and a wire byte run as the next step from reset. -/
theorem test_place :
    (nextOf (step (State.reset.withFetchWord 32 0x20000000))).map (fun t => (t.status, t.hmode)) =
      some (0x7#32, .wait) ∧
    (nextOf (step (State.reset.withFetchWord 8 0x71))).map (fun t => (t.h, t.phase)) =
      some ([.poll .busy false, .start, .addr 0x71#8], .wAddr) := by decide

/-! ## Witnesses: for each statement with hypotheses, states and operands that meet them, every clause at the
boundary of its range -/

/-- The word w next in the sequence, and the HOST's turn. -/
def fetching (w : Word) (s : State) : State := atWord [w] 0 s

theorem witness_DecodeOfEncode :
    Instr.xw3 0xFF#8 0xFF#8 0xFF#8 ≠ .sensorReset ∧ Instr.xw3 0xFF#8 0xFF#8 0xFF#8 ≠ .sensorInit ∧
    Instr.xw3 0xFF#8 0xFF#8 0xFF#8 ≠ .sensorMeasure ∧ Instr.xw3 0xFF#8 0xFF#8 0xFF#8 ≠ .readFrame := by decide

theorem witness_EncodeOfDecode :
    decodeWord 0x9000FFFF#32 = .ok (.jf 0xFFFF#16) ∧ decodeAddr 0x71#8 = .ok .addrR := by decide

/-- Every case of R77 at its edges, and legal words beside them. -/
theorem witness_IllegalCommandWords :
    ready.fault = none ∧ ready.phase = .idle ∧ IllegalCommand 0x00000000#32 ∧ IllegalCommand 0x60000000#32 ∧
    IllegalCommand 0x70000000#32 ∧ IllegalCommand 0x80000000#32 ∧ IllegalCommand 0xFFFFFFFF#32 ∧
    IllegalCommand 0x10000001#32 ∧ IllegalCommand 0x28000000#32 ∧ IllegalCommand 0x50000001#32 ∧
    IllegalCommand 0x30000000#32 ∧ IllegalCommand 0x34000000#32 ∧ IllegalCommand 0x31000001#32 ∧
    IllegalCommand 0x31000100#32 ∧ IllegalCommand 0x32000001#32 ∧ IllegalCommand 0x40000000#32 ∧
    IllegalCommand 0x47000000#32 ∧ IllegalCommand 0x46000001#32 ∧ ¬ IllegalCommand 0x10000000#32 ∧
    ¬ IllegalCommand 0x31FF0000#32 ∧ ¬ IllegalCommand 0x33FFFFFF#32 ∧ ¬ IllegalCommand 0x41000000#32 ∧
    ¬ IllegalCommand 0x46000000#32 := by
  and_intros <;> decide

/-- Every case of R78's illegal words at its edges, and legal words beside them. -/
theorem witness_IllegalHostWords :
    (fetching 0x00000000#32 ready).fault = none ∧ (fetching 0x00000000#32 ready).HostTurn ∧
    (fetching 0x00000000#32 ready).hmode = .run ∧
    (fetching 0x00000000#32 ready).prog[0]? = some 0x00000000#32 ∧ IllegalHostWord 0x00000000#32 ∧
    IllegalHostWord 0x60000000#32 ∧ IllegalHostWord 0x7FFFFFFF#32 ∧ IllegalHostWord 0xB0000000#32 ∧
    IllegalHostWord 0x80010000#32 ∧ IllegalHostWord 0x98000000#32 ∧ IllegalHostWord 0xA0010000#32 ∧
    IllegalHostWord 0xA0000004#32 ∧ IllegalHostWord 0xA0000003#32 ∧ ¬ IllegalHostWord 0x8000FFFF#32 ∧
    ¬ IllegalHostWord 0xA0000002#32 := by
  and_intros <;> decide

/-- InitResult, both clauses; the first also serves ClrResult and NoFrameFails (RXVALID = 0). -/
theorem witness_InitResult :
    (State.reset.fault = none ∧ State.reset.phase = .idle ∧ State.reset.initd = false ∧
      State.reset.rxvalid = false) ∧
    (ready.fault = none ∧ ready.phase = .idle ∧ ready.initd = true) := by decide

theorem witness_ClrResult : ready.fault = none ∧ ready.phase = .idle := by decide

/-- WriteIssueResult, both clauses, and the second part of PseudoResult. -/
theorem witness_WriteIssueResult :
    (ready.fault = none ∧ ready.phase = .idle ∧ ready.initd = true) ∧
    (State.reset.fault = none ∧ State.reset.phase = .idle ∧ State.reset.initd = false) := by decide

theorem witness_ReadIssueResult :
    ((Instr.xr1, 1#3) ∈ [(Instr.xr1, 1#3), (.xr2, 2#3), (.xr3, 3#3), (.xr4, 4#3), (.xr5, 5#3), (.xr6, 6#3)] ∧
      (Instr.xr6, 6#3) ∈ [(Instr.xr1, 1#3), (.xr2, 2#3), (.xr3, 3#3), (.xr4, 4#3), (.xr5, 5#3), (.xr6, 6#3)]) ∧
    (ready.fault = none ∧ ready.phase = .idle ∧ ready.initd = true) ∧ State.reset.initd = false := by decide

theorem witness_PseudoResult : ready.fault = none ∧ ready.phase = .idle ∧ ready.initd = true := by decide

theorem witness_DecodeCommits :
    (withFrame #v[0x7F, 0xFF, 0xFF, 0xFF, 0xFF, 0xFF]).fault = none ∧
    (withFrame #v[0x7F, 0xFF, 0xFF, 0xFF, 0xFF, 0xFF]).phase = .idle ∧
    (withFrame #v[0x7F, 0xFF, 0xFF, 0xFF, 0xFF, 0xFF]).rxvalid = true ∧
    (withFrame #v[0x7F, 0xFF, 0xFF, 0xFF, 0xFF, 0xFF]).rxlen = 6#3 ∧
    ((withFrame #v[0x7F, 0xFF, 0xFF, 0xFF, 0xFF, 0xFF]).rxByte 0).getLsbD 7 = false := by decide

/-- DecodeCommits's second clause, the six bytes told apart. -/
theorem witness_DecodeCommits_bytes :
    (withFrame #v[0x7F, 1, 2, 3, 4, 5]).rxvalid = true ∧ (withFrame #v[0x7F, 1, 2, 3, 4, 5]).rxlen = 6#3 ∧
    (∀ (j : Nat) (hj : j < 6),
      (withFrame #v[0x7F, 1, 2, 3, 4, 5]).rxbuf[j] = some (#v[0x7F, 1, 2, 3, 4, 5] : Frame)[j]) ∧
    (#v[0x7F, 1, 2, 3, 4, 5] : Frame)[0].getLsbD 7 = false := by decide

theorem witness_BusyFrameFails :
    (withFrame #v[0x80, 0, 0, 0, 0, 0]).fault = none ∧ (withFrame #v[0x80, 0, 0, 0, 0, 0]).phase = .idle ∧
    (withFrame #v[0x80, 0, 0, 0, 0, 0]).rxvalid = true ∧ (withFrame #v[0x80, 0, 0, 0, 0, 0]).rxlen = 6#3 ∧
    ((withFrame #v[0x80, 0, 0, 0, 0, 0]).rxByte 0).getLsbD 7 = true := by decide

/-- No frame, and a valid frame of another length. -/
theorem witness_NoFrameFails :
    (State.reset.fault = none ∧ State.reset.phase = .idle ∧ State.reset.rxvalid = false) ∧
    ({ ready with rxvalid := true, rxlen := 5#3 }.fault = none ∧
      { ready with rxvalid := true, rxlen := 5#3 }.phase = .idle ∧
      { ready with rxvalid := true, rxlen := 5#3 }.rxlen ≠ 6#3) := by decide

theorem witness_DecodeKeepsFrame :
    (withFrame #v[0, 0x19, 0x99, 0x9A, 0x66, 0x66]).fault = none ∧
    (withFrame #v[0, 0x19, 0x99, 0x9A, 0x66, 0x66]).phase = .idle := by decide

/-- DelayResult, ReturnResult, AddressByteResult. -/
theorem witness_DelayResult : ready.fault = none := by decide
theorem witness_ReturnResult : ready.fault = none := by decide
theorem witness_AddressByteResult : (writing .wBusy 0#14 []).fault = none := by decide

/-- The greatest legal target, after a failure and after a success. -/
theorem witness_JumpIfFailed :
    ((atWord (sequenceWords seqBegin) 3 { ready with okv := true }).fault = none ∧
      (9#16).toNat < (atWord (sequenceWords seqBegin) 3 { ready with okv := true }).prog.length ∧
      (atWord (sequenceWords seqBegin) 3 { ready with okv := true }).okv = true ∧
      (atWord (sequenceWords seqBegin) 3 { ready with okv := true }).ok = false) ∧
    { ready with okv := true, ok := true }.ok = true := by decide

/-- The least illegal target, and the greatest legal one without a result. -/
theorem witness_JumpFaults :
    (atWord (sequenceWords seqBegin) 3 ready).fault = none ∧
    (atWord (sequenceWords seqBegin) 3 ready).prog.length ≤ (10#16).toNat ∧
    (9#16).toNat < (atWord (sequenceWords seqBegin) 3 ready).prog.length ∧
    (atWord (sequenceWords seqBegin) 3 ready).okv = false := by decide

/-- OverlapFirst, and NoCancellation's running transaction. -/
theorem witness_OverlapFirst :
    (writing .wBtf 0#14 []).fault = none ∧ (writing .wBtf 0#14 []).phase ≠ .idle ∧ Instr.init.cls = .command := by
  decide

/-- INIT and another command, each with a next state. -/
theorem witness_CommandFrame :
    Instr.init.cls = .command ∧ (nextOf (exec .init State.reset)).isSome = true ∧
    Instr.dec.cls = .command ∧ (nextOf (exec .dec State.reset)).isSome = true := by decide

theorem witness_TransferFrame :
    (nextOf (exec .xr6 ready)).isSome = true ∧ (nextOf (exec .sensorReset ready)).isSome = true ∧
    (nextOf (exec (.xw1 0#8) ready)).isSome = true ∧ (nextOf (exec (.xw2 0#8 1#8) ready)).isSome = true ∧
    (nextOf (exec (.xw3 0#8 1#8 2#8) ready)).isSome = true ∧
    (nextOf (exec .sensorReset State.reset)).map State.fault = some (some .notInit) := by decide

theorem witness_AtomicCommandFrame :
    (nextOf (exec .init State.reset)).isSome = true ∧ (nextOf (exec .dec ready)).isSome = true ∧
    (nextOf (exec .clr ready)).isSome = true := by decide

theorem witness_HostWordFrame :
    Instr.retVoid.cls = .hostWord ∧ (nextOf (exec .retVoid ready)).isSome = true ∧
    (Instr.delay 0#16).cls = .hostWord ∧ (nextOf (exec (.delay 0#16) ready)).isSome = true ∧
    (Instr.jf 0#16).cls = .hostWord ∧ (nextOf (exec (.jf 0#16) ready)).isSome = true := by decide

theorem witness_AddressByteFrame :
    Instr.addrW.cls = .wireByte ∧ (nextOf (exec .addrW (writing .wBusy 0#14 []))).isSome = true ∧
    Instr.addrR.cls = .wireByte ∧ (nextOf (exec .addrR (writing .wBusy 0#14 []))).isSome = true := by decide

/-- The flag met, its last unmet sample, and the one before. -/
theorem witness_BusyWaitStep :
    ((writing .wBusy 9999#14 [0#8]).fault = none ∧ (writing .wBusy 9999#14 [0#8]).XactTurn ∧
      (writing .wBusy 9999#14 [0#8]).sampled .busy = false) ∧
    ((writing .wBusy 9999#14 [1#8]).sampled .busy = true ∧ 9999#14 + 1#14 = ready.pollLimit) ∧
    ((writing .wBusy 9998#14 [1#8]).sampled .busy = true ∧ 9998#14 + 1#14 ≠ ready.pollLimit) := by decide

theorem witness_AddressWaitStep :
    ((writing .wAddr 9999#14 [1#8]).fault = none ∧ (writing .wAddr 9999#14 [1#8]).XactTurn ∧
      (writing .wAddr 9999#14 [1#8]).sampled .addrAck = true ∧ (writing .wAddr 9999#14 [1#8]).curOp = .xw) ∧
    ((reading 1#3 .wAddr 0#3 0#14 [1#8]).XactTurn ∧ (reading 1#3 .wAddr 0#3 0#14 [1#8]).sampled .addrAck = true ∧
      (reading 1#3 .wAddr 0#3 0#14 [1#8]).curOp = .xr) ∧
    ((writing .wAddr 9999#14 [0#8]).sampled .addrAck = false ∧ 9999#14 + 1#14 = ready.pollLimit) ∧
    ((writing .wAddr 9998#14 [0#8]).sampled .addrAck = false ∧ 9998#14 + 1#14 ≠ ready.pollLimit) := by decide

theorem witness_TransmitWaitStep :
    ((writing3 .wBtf 1#3 0#14 [1#8]).fault = none ∧ (writing3 .wBtf 1#3 0#14 [1#8]).XactTurn ∧
      (writing3 .wBtf 1#3 0#14 [1#8]).sampled .btf = true ∧
      (writing3 .wBtf 1#3 0#14 [1#8]).curIdx.toNat + 1 < (writing3 .wBtf 1#3 0#14 [1#8]).curN) ∧
    (writing3 .wBtf 2#3 0#14 [1#8]).curIdx.toNat + 1 = (writing3 .wBtf 2#3 0#14 [1#8]).curN ∧
    (writing3 .wBtf 2#3 9999#14 [0#8]).sampled .btf = false ∧
    ((writing3 .wBtf 2#3 9998#14 [0#8]).sampled .btf = false ∧ 9998#14 + 1#14 ≠ ready.pollLimit) := by decide

theorem witness_ReceiveWaitStep :
    ((reading 6#3 .wRxne 4#3 0#14 [1#8, 0#8]).fault = none ∧ (reading 6#3 .wRxne 4#3 0#14 [1#8, 0#8]).XactTurn ∧
      (reading 6#3 .wRxne 4#3 0#14 [1#8, 0#8]).sampled .rxne = true ∧
      (reading 6#3 .wRxne 4#3 0#14 [1#8, 0#8]).curIdx.toNat + 1 < (reading 6#3 .wRxne 4#3 0#14 [1#8, 0#8]).curN) ∧
    ¬ (reading 6#3 .wRxne 5#3 0#14 [1#8, 0#8]).curIdx.toNat + 1 < (reading 6#3 .wRxne 5#3 0#14 [1#8, 0#8]).curN ∧
    (reading 6#3 .wRxne 5#3 9999#14 [0#8]).sampled .rxne = false ∧
    ((reading 6#3 .wRxne 5#3 9998#14 [0#8]).sampled .rxne = false ∧ 9998#14 + 1#14 ≠ ready.pollLimit) := by decide

/-- Both draws. -/
theorem witness_AbortDrawsFreely :
    ((writing .wAddr 9999#14 [0#8, 1#8]).fault = none ∧ (writing .wAddr 9999#14 [0#8, 1#8]).XactTurn ∧
      (writing .wAddr 9999#14 [0#8, 1#8]).phase = .wAddr ∧ 9999#14 + 1#14 = ready.pollLimit ∧
      (Phase.wAddr, Flag.addrAck, Cause.addrTimeout) ∈ [(Phase.wAddr, Flag.addrAck, Cause.addrTimeout),
        (.wBtf, .btf, .btfTimeout), (.wRxne, .rxne, .rxneTimeout)] ∧
      (writing .wAddr 9999#14 [0#8, 1#8]).envInput = 0x00#8 :: (if true then 0x01#8 else 0x00#8) :: []) ∧
    (writing .wAddr 9999#14 [0#8, 0#8]).envInput = 0x00#8 :: (if false then 0x01#8 else 0x00#8) :: [] := by decide

theorem witness_TransactorNeverFaults :
    (nextOf (xactStep (writing .wAddr 9999#14 [0#8, 0#8]))).isSome = true ∧
    (writing .wAddr 9999#14 [0#8, 0#8]).fault = none ∧ (writing .wAddr 9999#14 [0#8, 0#8]).phase ≠ .idle := by decide

/-- BoundedCompletion, in a fresh wait and in one on its last sample. -/
theorem witness_BoundedCompletion :
    ((writing3 .wBusy 0#3 0#14 []).Inv ∧ (writing3 .wBusy 0#3 0#14 []).fault = none ∧
      (writing3 .wBusy 0#3 0#14 []).phase = .wBusy ∧ (writing3 .wBusy 0#3 0#14 []).cnt = 0#14) ∧
    ((reading 6#3 .wRxne 3#3 9999#14 []).Inv ∧ (reading 6#3 .wRxne 3#3 9999#14 []).phase ≠ .idle) := by decide

/-- W-1's run of three steps, and a bus-busy timeout. -/
theorem witness_WriteWireShape :
    ((writing .wBusy 0#14 [0#8, 1#8, 1#8]).Inv ∧ (writing .wBusy 0#14 [0#8, 1#8, 1#8]).phase = .wBusy ∧
      (writing .wBusy 0#14 [0#8, 1#8, 1#8]).op = some .xw ∧
      (nextOf (xactRun 3 (writing .wBusy 0#14 [0#8, 1#8, 1#8]))).map (fun t => (t.phase, t.ok)) =
        some (.idle, true)) ∧
    (nextOf (xactRun 1 (writing .wBusy 9999#14 [1#8]))).map (fun t => (t.phase, t.ok, t.cause)) =
      some (.idle, false, .busBusyTimeout) := by decide

/-- X-1's run of three steps, and a bus-busy timeout. -/
theorem witness_ReadWireShape :
    ((reading 1#3 .wBusy 0#3 0#14 [0#8, 1#8, 1#8, 0x5A#8]).Inv ∧
      (reading 1#3 .wBusy 0#3 0#14 [0#8, 1#8, 1#8, 0x5A#8]).phase = .wBusy ∧
      (reading 1#3 .wBusy 0#3 0#14 [0#8, 1#8, 1#8, 0x5A#8]).op = some .xr ∧
      (nextOf (xactRun 3 (reading 1#3 .wBusy 0#3 0#14 [0#8, 1#8, 1#8, 0x5A#8]))).map (fun t => (t.phase, t.ok)) =
        some (.idle, true)) ∧
    (nextOf (xactRun 1 (reading 1#3 .wBusy 0#3 9999#14 [1#8]))).map (fun t => (t.phase, t.ok, t.cause)) =
      some (.idle, false, .busBusyTimeout) := by decide

theorem witness_FailedTransactionFrame :
    (nextOf (step (writing .wBtf 9999#14 [0#8, 1#8]))).map (fun t => (t.phase, t.ok)) = some (.idle, false) ∧
    (writing .wBtf 9999#14 [0#8, 1#8]).phase ≠ .idle := by decide

/-- The zero band of TemperatureExact at both ends. -/
theorem witness_TemperatureExact :
    261620 ≤ (261620#20).toNat ∧ (261620#20).toNat ≤ 262144 ∧ (262144#20).toNat ≤ 262144 := by decide

/-- HumidityRoundTrip at its greatest value. -/
theorem witness_HumidityRoundTrip : (999 : Nat) ≤ 999 ∧ humX10 .exact 1047528#20 = (999 : Nat) := by decide

theorem witness_StatusBitsIgnored :
    (#v[0x00, 1, 2, 3, 4, 5] : Frame)[0].getLsbD 7 = (#v[0x7F, 1, 2, 3, 4, 5] : Frame)[0].getLsbD 7 ∧
    (#v[0x00, 1, 2, 3, 4, 5] : Frame)[1] = (#v[0x7F, 1, 2, 3, 4, 5] : Frame)[1] ∧
    (#v[0x00, 1, 2, 3, 4, 5] : Frame)[5] = (#v[0x7F, 1, 2, 3, 4, 5] : Frame)[5] := by decide

theorem witness_StatusLayout : State.reset.Inv ∧ State.reset.okv = false := by decide

/-- The four reads, the edges of the unmapped registers, and a faulting write. -/
theorem witness_RegisterAccess :
    { ready with turns := [.read 0x1#8] }.fault = none ∧
    { ready with turns := [.read 0x3#8] }.turns = .read 0x3#8 :: [] ∧
    ((0x0#8 : BitVec 8) ≠ 0x1#8 ∧ (0x0#8 : BitVec 8) ≠ 0x2#8 ∧ (0x0#8 : BitVec 8) ≠ 0x3#8) ∧
    ((0x4#8 : BitVec 8) ≠ 0x1#8 ∧ (0x4#8 : BitVec 8) ≠ 0x2#8 ∧ (0x4#8 : BitVec 8) ≠ 0x3#8) ∧
    { ready with turns := [.write 0x1#8 0#32] }.turns = .write 0x1#8 0#32 :: [] ∧ (0x1#8 : BitVec 8) ≠ 0x0#8 := by
  decide

/-- CommandRegisterWrite: a transaction running, an illegal word, and a legal one. -/
theorem witness_CommandRegisterWrite :
    { writing .wBtf 0#14 [] with turns := [.write 0x0#8 0#32] }.phase ≠ .idle ∧
    { ready with turns := [.write 0x0#8 0x50000000#32] }.fault = none ∧
    { ready with turns := [.write 0x0#8 0x50000000#32] }.turns = .write 0x0#8 0x50000000#32 :: [] ∧
    { ready with turns := [.write 0x0#8 0x50000000#32] }.phase = .idle ∧
    IllegalCommand 0x50000001#32 ∧ ¬ IllegalCommand 0x50000000#32 := by decide

/-- R162, step 1 and step 2: the HOST waits after the issue, and goes on when IDLE = 1. -/
theorem test_issue_then_wait :
    (nextOf (step (fetching 0x20000000#32 ready))).map (fun t => (t.hmode, t.hpc)) = some (.wait, 0) ∧
    (nextOf (step { ready with hmode := .wait })).map (fun t => (t.hmode, t.hpc)) = some (.run, 1) := by decide

/-- A command and a host word; the HOST's turn listed while XACT runs, too. -/
theorem witness_StepRunsHostWord :
    ((fetching 0x50000000#32 ready).fault = none ∧ (fetching 0x50000000#32 ready).HostTurn ∧
      (fetching 0x50000000#32 ready).hmode = .run ∧ (fetching 0x50000000#32 ready).prog[0]? = some 0x50000000#32 ∧
      decodeWord 0x50000000#32 = .ok .dec ∧ Instr.dec.cls = .command) ∧
    (decodeWord 0x80000014#32 = .ok (.delay 20#16) ∧ (Instr.delay 20#16).cls = .hostWord) ∧
    { fetching 0x80000014#32 (writing .wBtf 0#14 []) with turns := [.seq] }.HostTurn := by decide

theorem witness_StepRunsAddressByte :
    ((writing .wBusy 0#14 [0#8]).fault = none ∧ (writing .wBusy 0#14 [0#8]).XactTurn ∧
      (writing .wBusy 0#14 [0#8]).phase = .wBusy ∧ (writing .wBusy 0#14 [0#8]).sampled .busy = false ∧
      (writing .wBusy 0#14 [0#8]).curOp = .xw) ∧
    (reading 6#3 .wBusy 0#3 0#14 [0#8]).curOp = .xr := by decide

/-- HostFetchByOp: past the end, at each edge of OP, and halted. -/
theorem witness_HostFetchByOp :
    (State.reset.fault = none ∧ State.reset.HostTurn ∧ State.reset.hmode = .run ∧
      State.reset.prog.length ≤ State.reset.hpc.toNat) ∧
    ({ fetching0 with hpcPast := true }.HostTurn ∧ { fetching0 with hpcPast := true }.hmode = .run) ∧
    ((fetching 0x10000000#32 ready).HostTurn ∧ (fetching 0x10000000#32 ready).prog[0]? = some 0x10000000#32) ∧
    ((opField 0x10000000#32).toNat = 1 ∧ (opField 0x5FFFFFFF#32).toNat = 5 ∧ (opField 0x6FFFFFFF#32).toNat = 6 ∧
      (opField 0x80000000#32).toNat = 8 ∧ (opField 0xA0000002#32).toNat = 10 ∧ IllegalHostWord 0xA0000003#32 ∧
      ¬ IllegalHostWord 0xA0000002#32 ∧ (opField 0xAFFFFFFF#32).toNat = 10 ∧
      (opField 0xB0000000#32).toNat = 11) ∧
    ({ ready with hmode := .halt }.HostTurn ∧ { ready with hmode := .halt }.phase = .idle ∧
      { ready with hmode := .halt }.turns.tail = []) := by decide

theorem witness_WaitEndsWhenIdle :
    ({ ready with hmode := .wait }.fault = none ∧ { ready with hmode := .wait }.HostTurn ∧
      { ready with hmode := .wait }.phase = .idle) ∧
    ({ writing .wBtf 0#14 [] with hmode := .wait }.turns = [] ∧
      { writing .wBtf 0#14 [] with hmode := .wait }.phase ≠ .idle) ∧
    ({ writing .wBtf 0#14 [] with hmode := .wait, turns := [.seq] }.turns = [.seq] ∧
      { writing .wBtf 0#14 [] with hmode := .wait, turns := [.seq] }.phase ≠ .idle) := by decide

/-- A step that raises a fault, an instruction that does, and a stopped state. -/
theorem witness_FaultsStopPrecisely :
    (nextOf (step ready)).map State.fault = some (some .hPcEnd) ∧
    (nextOf (exec .init ready)).map State.fault = some (some .reinit) ∧
    { ready with fault := some .overlap }.fault = some .overlap := by decide

/-- A state with a step and a final state. -/
theorem witness_ProgressUntilFinal :
    State.reset.fault = none ∧ { ready with hmode := .halt, hret := some .void }.Final := by decide

/-- A step that writes the handle. -/
theorem witness_HandleWriters :
    (nextOf (step (fetching 0x20000000#32 { ready with tempX10 := 7#16 }))).map State.tempX10 = some 0#16 := by decide

theorem witness_HistoryGrows :
    (nextOf (step (fetching 0x80000014#32 ready))).map State.h = some [.delay 20#16] ∧ ready.phase = .idle := by decide

theorem witness_ProgramAndReturnValue :
    (nextOf (step (fetching 0xA0000001#32 ready))).map State.hret = some (some .boolTrue) ∧ ready.hret = none := by
  decide

/-- Each kind of HOST step while a transaction runs. -/
theorem witness_NoCancellation :
    (writing .wBtf 0#14 []).phase ≠ .idle ∧
    (nextOf (seqStep (fetching 0x80000014#32 (writing .wBtf 0#14 [])))).map State.fault = some none ∧
    (nextOf (regRead 1#8 (writing .wBtf 0#14 []))).map State.fault = some none ∧
    (nextOf (regWrite 0#8 0x20000000#32 (writing .wBtf 0#14 []))).map State.fault = some (some .overlap) := by decide

/-- A running transaction's last byte: the invariant, and a step from it. -/
theorem witness_StepKeepsInvariant :
    (reading 4#3 .wRxne 3#3 9999#14 [1#8, 0x5A#8]).Inv ∧
    (nextOf (step (reading 4#3 .wRxne 3#3 9999#14 [1#8, 0x5A#8]))).isSome = true := by decide

theorem witness_OnlyWrittenBytesRead :
    ((writing3 .wBtf 2#3 0#14 []).Inv ∧ (writing3 .wBtf 2#3 0#14 []).phase ≠ .idle ∧
      (writing3 .wBtf 2#3 0#14 []).op = some .xw ∧ 2 < (writing3 .wBtf 2#3 0#14 []).curN) ∧
    ((reading 6#3 .wRxne 3#3 0#14 []).Inv ∧ (reading 6#3 .wRxne 3#3 0#14 []).phase = .wRxne ∧
      2 < (reading 6#3 .wRxne 3#3 0#14 []).curIdx.toNat) ∧
    ((withFrame #v[0, 0, 0, 0, 0, 0]).Inv ∧ (withFrame #v[0, 0, 0, 0, 0, 0]).rxvalid = true ∧
      (withFrame #v[0, 0, 0, 0, 0, 0]).rxlen = 6#3) := by decide

end Sys2Proof.Tests
end

section
/-! SUPPORT. The decoder's ranges (41_decoder.md R144 to R147): under both settings of DECODE_NUMERICS the pair fits the
handle's ranges, because rounding to binary32 moves a value of at most 32 bits by at most 256. -/

namespace Sys2Proof.Machine

/-- A scaled value strictly between -(a + 1) and b + 1 is truncated into [-a, b] (R146). -/
theorem truncScaled_bounds {m : Int} {a b : Nat} (ha : -(((a + 1) * 2 ^ 20 : Nat) : Int) < m)
    (hb : m < (((b + 1) * 2 ^ 20 : Nat) : Int)) : -(a : Int) ≤ truncScaled m ∧ truncScaled m ≤ b := by
  unfold truncScaled
  simp only [Nat.shiftRight_eq_div_pow]
  split <;> omega

theorem excessBits_le (fuel m : Nat) : excessBits fuel m ≤ fuel := by
  induction fuel generalizing m with
  | zero => simp [excessBits]
  | succ fuel ih =>
    unfold excessBits
    split
    · omega
    · exact Nat.succ_le_succ (ih _)

theorem divRoundEven_mul_le (m k : Nat) : divRoundEven m k * 2 ^ k ≤ m + 2 ^ k := by
  have hq : m / 2 ^ k * 2 ^ k ≤ m := Nat.div_mul_le_self m _
  simp only [divRoundEven]
  split
  · rw [Nat.add_mul]
    omega
  · omega

theorem fl32_le (m : Nat) : fl32 m ≤ m + 256 :=
  calc fl32 m ≤ m + 2 ^ excessBits 8 m := divRoundEven_mul_le m _
    _ ≤ m + 2 ^ 8 := by gcongr <;> simp [excessBits_le]

theorem fl32Int_bounds (m : Int) : min m 0 - 256 ≤ fl32Int m ∧ fl32Int m ≤ max m 0 + 256 := by
  have hpos := fl32_le m.toNat
  have hneg := fl32_le (-m).toNat
  unfold fl32Int
  split <;> omega

theorem humX10_bounds (m : DecodeNumerics) (r : BitVec 20) : 0 ≤ humX10 m r ∧ humX10 m r ≤ 999 := by
  have hr := r.isLt
  cases m with
  | exact =>
    simp only [humX10, humX10Exact, Nat.shiftRight_eq_div_pow]
    omega
  | binary32 =>
    have hround := fl32_le (r.toNat * 1000)
    simp only [humX10, humX10B32, Nat.shiftRight_eq_div_pow]
    omega

theorem tempX10_bounds (m : DecodeNumerics) (r : BitVec 20) : -500 ≤ tempX10 m r ∧ tempX10 m r ≤ 1499 := by
  have hr := r.isLt
  cases m with
  | exact => exact truncScaled_bounds (a := 500) (b := 1499) (by omega) (by omega)
  | binary32 =>
    have hround := fl32_le (r.toNat * 2000)
    have hdiff := fl32Int_bounds ((fl32 (r.toNat * 2000) : Int) - 524288000)
    exact truncScaled_bounds (a := 500) (b := 1499) (by omega) (by omega)

/-- The 16-bit store of a value of 16 bits does not wrap (R147). -/
theorem toInt_store16 {v : Int} (hl : -2 ^ 15 ≤ v) (hu : v < 2 ^ 15) : (store16 v).toInt = v :=
  BitVec.toInt_ofInt_eq_self (by decide) hl hu

/-- A zero handle is in its ranges (R24, R25). -/
theorem temp_zero : -500 ≤ (0#16).toInt ∧ (0#16).toInt ≤ 1499 := by decide
theorem hum_zero : 0 ≤ (0#16).toInt ∧ (0#16).toInt ≤ 999 := by decide

end Sys2Proof.Machine
end

section
/-! SUPPORT. Which instructions the parametrised effects of Laws/Exec.lean are of, and with which operands. -/

namespace Sys2Proof.Machine

variable {i : Instr}

theorem cls_of_ret {v : RetVal}
    (hi : (i, v) ∈ [(Instr.retFalse, RetVal.boolFalse), (.retTrue, .boolTrue), (.retVoid, .void)]) :
    i ∈ [Instr.retFalse, .retTrue, .retVoid] ∧ i.cls = .hostWord := by
  simp only [List.mem_cons, Prod.mk.injEq, List.not_mem_nil, or_false] at hi
  obtain ⟨rfl, -⟩ | ⟨rfl, -⟩ | ⟨rfl, -⟩ := hi <;> decide

theorem cls_of_addr {rw : Bool} (hi : (i, rw) ∈ [(Instr.addrW, false), (.addrR, true)]) : i.cls = .wireByte := by
  simp only [List.mem_cons, Prod.mk.injEq, List.not_mem_nil, or_false] at hi
  obtain ⟨rfl, -⟩ | ⟨rfl, -⟩ := hi <;> rfl

theorem cls_of_payloadOf {p : BitVec 3 × Vector (Option Byte) 3} (h : payloadOf i = some p) : i.cls = .command := by
  cases i <;> cases h <;> rfl

theorem cls_of_readLengthOf {k : BitVec 3} (h : readLengthOf i = some k) : i.cls = .command := by
  cases i <;> cases h <;> rfl

/-- An XW carries 1 to 3 bytes (R74). -/
theorem payloadOf_cases {k : BitVec 3} {buf : Vector (Option Byte) 3} (h : payloadOf i = some (k, buf)) :
    (1 ≤ k.toNat ∧ k.toNat ≤ 3) ∧ ∃ b0 b1 b2, buf = payload b0 b1 b2 := by
  cases i <;> cases h <;> exact ⟨by decide, _, _, _, rfl⟩

/-- An XR asks for 1 to 6 bytes (R75). -/
theorem readLengthOf_bounds {k : BitVec 3} (h : readLengthOf i = some k) : 1 ≤ k.toNat ∧ k.toNat ≤ 6 := by
  cases i <;> cases h <;> decide

end Sys2Proof.Machine
end

section
/-! SUPPORT. What an agent's effect leaves alone: the HOST's own fields, PROG and the parameters, the handle, and what H
held. -/

namespace Sys2Proof.Machine

variable {s t : State} {i : Instr}

/-- The HOST's own fields are the same in both states (R38). -/
structure SameHost (s t : State) : Prop where
  hpc : t.hpc = s.hpc
  hpcPast : t.hpcPast = s.hpcPast
  hmode : t.hmode = s.hmode
  hret : t.hret = s.hret
  prog : t.prog = s.prog

theorem SameHost.wordAtHpc_eq (h : SameHost s t) : t.wordAtHpc = s.wordAtHpc := by
  simp only [State.wordAtHpc, h.hpc, h.hpcPast, h.prog]

theorem XactEffect.sameHost (h : XactEffect s t) : SameHost s t := by
  cases h <;> constructor <;> simp

theorem Effect.sameHost_of_command (hc : i.cls = .command) (h : Effect s i t) : SameHost s t := by
  cases h with
  | delay | jump | fall => cases hc
  | ret hi => cases hc.symm.trans (cls_of_ret hi).2
  | addr hi => cases hc.symm.trans (cls_of_addr hi)
  | _ => constructor <;> rfl

/-- A host word leaves HRET alone or is a RET, which halts the HOST (R163 to R165). -/
theorem Effect.hret_of_hostWord (hc : i.cls = .hostWord) (h : Effect s i t) :
    t.hret = s.hret ∨ (t.hmode = .halt ∧ i ∈ [Instr.retFalse, .retTrue, .retVoid]) := by
  cases h with
  | ret hi => exact .inr ⟨rfl, (cls_of_ret hi).1⟩
  | _ => exact .inl rfl

/-- PROG and the parameters of R6 are the same in both states. -/
structure SameParams (s t : State) : Prop where
  prog : t.prog = s.prog
  pollLimit : t.pollLimit = s.pollLimit
  numerics : t.numerics = s.numerics

theorem XactEffect.sameParams (h : XactEffect s t) : SameParams s t := by
  cases h <;> constructor <;> simp

theorem Effect.sameParams (h : Effect s i t) : SameParams s t := by
  cases h <;> constructor <;> rfl

theorem SeqEffect.sameParams (h : SeqEffect s t) : SameParams s t := by
  cases h with
  | cmd _ _ _ _ he | host _ _ _ _ he => exact { he.sameParams with }
  | wait => constructor <;> rfl

theorem StepEffect.sameParams (h : StepEffect s t) : SameParams s t := by
  cases h with
  | fault | read => constructor <;> rfl
  | xact _ he => exact { he.sameParams with }
  | seq he => exact { he.sameParams with }
  | cmd _ _ _ he => exact { he.sameParams with }

/-- A step leaves HRET alone or is the HOST's run of a RET at HPC (R165). -/
theorem StepEffect.hret_cases (h : StepEffect s t) :
    t.hret = s.hret ∨ (t.hmode = .halt ∧ s.hmode = .run ∧
      ∃ w i, s.wordAtHpc = some w ∧ decodeWord w = .ok i ∧ i ∈ [Instr.retFalse, .retTrue, .retVoid]) := by
  cases h with
  | fault | read => exact .inl rfl
  | xact _ he => exact .inl he.sameHost.hret
  | cmd _ _ hc he => exact .inl (he.sameHost_of_command hc).hret
  | seq he =>
    cases he with
    | cmd _ _ _ hc he => exact .inl (he.sameHost_of_command hc).hret
    | host hm hw hd hc he => exact (he.hret_of_hostWord hc).imp id fun ⟨hh, hi⟩ => ⟨hh, hm, _, _, hw, hd, hi⟩
    | wait => exact .inl rfl

theorem XactEffect.history_extends (h : XactEffect s t) : s.h <+: t.h := by
  cases h <;> simp [abort_eq]

theorem Effect.history_extends (h : Effect s i t) : s.h <+: t.h := by
  cases h <;> simp

/-- Only a wire address byte drives the wire by itself (R31, R80): INIT and DELAY append events that are not
wire-level, and the other words of the HOST none. -/
theorem Effect.wire_eq (hc : i.cls ≠ .wireByte) (h : Effect s i t) : wire t.h = wire s.h := by
  cases h with
  | init | delay => simp [wire, Event.isWire]
  | addr hi => exact absurd (cls_of_addr hi) hc
  | _ => rfl

theorem SeqEffect.history (h : SeqEffect s t) : s.h <+: t.h ∧ wire t.h = wire s.h := by
  cases h with
  | cmd _ _ _ hc he | host _ _ _ hc he =>
    have hw := he.wire_eq (by simp [hc])
    exact ⟨he.history_extends, hw⟩
  | wait => exact ⟨⟨[], List.append_nil _⟩, rfl⟩

theorem XactEffect.handle_eq (h : XactEffect s t) : t.tempX10 = s.tempX10 ∧ t.humX10 = s.humX10 := by
  cases h <;> simp

/-- An instruction leaves the handle, or it is a CLR or a DEC that succeeds (R34, R143, R150). -/
theorem Effect.handle_cases (h : Effect s i t) :
    (t.tempX10 = s.tempX10 ∧ t.humX10 = s.humX10) ∨
    (t.okv = true ∧ t.ok = true ∧
      ((i = .clr ∧ t.tempX10 = 0#16 ∧ t.humX10 = 0#16) ∨
       (i = .dec ∧ s.rxvalid = true ∧ s.rxlen = 6#3 ∧ s.rxFrame.busy = false ∧
        t.tempX10 = store16 (tempX10 s.numerics s.rxFrame.tempRaw) ∧
        t.humX10 = store16 (humX10 s.numerics s.rxFrame.humRaw)))) := by
  cases h with
  | clr => exact .inr ⟨rfl, rfl, .inl ⟨rfl, rfl, rfl⟩⟩
  | decode _ hv hl hb => exact .inr ⟨rfl, rfl, .inr ⟨rfl, hv, BitVec.eq_of_toNat_eq hl, hb, rfl, rfl⟩⟩
  | _ => exact .inl ⟨rfl, rfl⟩

/-- A step leaves the handle, or leaves in the handle and the flags what a word the HOST may issue does. -/
theorem StepEffect.handle_cases (h : StepEffect s t) :
    (t.tempX10 = s.tempX10 ∧ t.humX10 = s.humX10) ∨
    (∃ w i u, s.MayIssue w ∧ decodeWord w = .ok i ∧ Effect s i u ∧
      t.tempX10 = u.tempX10 ∧ t.humX10 = u.humX10 ∧ t.okv = u.okv ∧ t.ok = u.ok) := by
  cases h with
  | fault | read => exact .inl ⟨rfl, rfl⟩
  | xact _ he => exact .inl he.handle_eq
  | cmd hw hd _ he => exact .inr ⟨_, _, _, .inr hw, hd, he, rfl, rfl, rfl, rfl⟩
  | seq he =>
    cases he with
    | cmd _ hw hd _ he | host _ hw hd _ he =>
      exact .inr ⟨_, _, _, .inl (wordAtHpc_eq_some.1 hw), hd, he, rfl, rfl, rfl, rfl⟩
    | wait => exact .inl ⟨rfl, rfl⟩

end Sys2Proof.Machine
end

section
/-! SUPPORT. The machine's invariant clause by clause, each clause a proposition with a name: State.Inv says BlockInv and
HostInv (inv_iff). -/

namespace Sys2Proof.Machine

variable {s t : State}

/-- The greatest N of a transfer of each direction (R74, R75). -/
def XferOp.maxCount : XferOp → Nat
  | .xw => 3
  | .xr => 6

theorem XferOp.maxCount_le (o : XferOp) : o.maxCount ≤ 6 := by cases o <;> decide

theorem XferOp.ne_xr_iff {o : XferOp} : ¬ o = .xr ↔ o = .xw := by cases o <;> decide
theorem XferOp.ne_xw_iff {o : XferOp} : ¬ o = .xw ↔ o = .xr := by cases o <;> decide

/-- What the invariant says of a running transfer's OP, N and IDX. -/
structure Bookkeeping (s : State) : Prop where
  op : s.op.isSome
  n : s.n.isSome
  idx : s.idx.isSome
  count : 1 ≤ s.curN ∧ s.curN ≤ s.curOp.maxCount
  sending : s.phase = .wBtf → s.curOp = .xw ∧ s.curIdx.toNat < s.curN
  receiving : s.phase = .wRxne → s.curOp = .xr ∧ s.curIdx.toNat < s.curN

/-- What the invariant says of a running transfer. -/
structure TransferInv (s : State) : Prop extends Bookkeeping s where
  payload : s.curOp = .xw → written s.txbuf.toList s.curN
  received : s.phase = .wRxne → written s.rxbuf.toList s.curIdx.toNat
  reading : s.curOp = .xr → s.rxvalid = false ∧ s.rxlen.toNat = s.curN
  flags : s.initd = true ∧ s.okv = false ∧ s.ok = false
  samples : s.cnt.toNat < s.pollLimit.toNat

/-- What the invariant says of the block whether a transfer runs or not. -/
structure AnyPhaseInv (s : State) : Prop where
  frame : s.rxvalid = true → written s.rxbuf.toList s.rxlen.toNat
  samples_le : s.cnt.toNat ≤ s.pollLimit.toNat
  result : s.okv = false → s.ok = false
  cause : s.okv = true → (s.ok = true ↔ s.cause = .none)
  temp : -500 ≤ s.tempX10.toInt ∧ s.tempX10.toInt ≤ 1499
  hum : 0 ≤ s.humX10.toInt ∧ s.humX10.toInt ≤ 999
  limit : 1 ≤ s.pollLimit.toNat

/-- What the invariant says of the block. -/
structure BlockInv (s : State) : Prop extends AnyPhaseInv s where
  transfer : s.phase ≠ .idle → TransferInv s

/-- What the invariant says of the HOST. -/
structure HostInv (s : State) : Prop where
  length : s.prog.length ≤ maxSequence
  past : s.hpcPast = true → s.hpc = 0#16 ∧ s.prog.length = maxSequence
  hret : s.hmode = .halt ↔ s.hret.isSome
  waiting : s.hmode = .wait → s.wordAtHpc.isSome

theorem transferWf_iff : s.transferWf = true ↔ (s.phase ≠ .idle → Bookkeeping s) := by
  constructor
  · intro h hp
    unfold State.transferWf at h
    split at h
    case h_1 => contradiction
    case h_8 => cases h
    all_goals
      rw [decide_eq_true_eq] at h
      constructor <;> simp_all [State.curOp, State.curN, State.curIdx, XferOp.maxCount] <;> omega
  · intro h
    by_cases hp : s.phase = .idle
    · simp [State.transferWf, hp]
    · obtain ⟨ho, hn, hi, hc, hs, hr⟩ := h hp
      obtain ⟨o, ho⟩ := Option.isSome_iff_exists.1 ho
      obtain ⟨k, hn⟩ := Option.isSome_iff_exists.1 hn
      obtain ⟨j, hi⟩ := Option.isSome_iff_exists.1 hi
      simp only [State.curOp, State.curN, State.curIdx, ho, hn, hi, Option.getD_some] at hc hs hr
      cases hq : s.phase <;> cases o <;> simp_all [State.transferWf, XferOp.maxCount]

theorem buffersWf_iff : s.buffersWf = true ↔
    (s.phase ≠ .idle → s.curOp = .xw → written s.txbuf.toList s.curN) ∧
    (s.phase = .wRxne → written s.rxbuf.toList s.curIdx.toNat) ∧
    (s.rxvalid = true → written s.rxbuf.toList s.rxlen.toNat) := by
  simp [State.buffersWf, or_iff_not_imp_left, and_assoc, XferOp.ne_xr_iff]

theorem receiveWf_iff : s.receiveWf = true ↔
    (s.phase ≠ .idle → s.curOp = .xr → s.rxvalid = false ∧ s.rxlen.toNat = s.curN) := by
  simp [State.receiveWf, or_iff_not_imp_left, XferOp.ne_xw_iff]

theorem flagsWf_iff : s.flagsWf = true ↔
    (s.phase ≠ .idle → (s.initd = true ∧ s.okv = false ∧ s.ok = false) ∧ s.cnt.toNat < s.pollLimit.toNat) ∧
    s.cnt.toNat ≤ s.pollLimit.toNat ∧ (s.okv = false → s.ok = false) := by
  simp [State.flagsWf, or_iff_not_imp_left, and_assoc]

theorem causeWf_iff : s.causeWf = true ↔ (s.okv = true → (s.ok = true ↔ s.cause = .none)) := by
  cases hv : s.okv <;> cases ho : s.ok <;> simp [State.causeWf, hv, ho]

theorem hostWf_iff : s.hostWf = true ↔ HostInv s := by
  have hret : (s.hmode == .halt) = s.hret.isSome ↔ (s.hmode = .halt ↔ s.hret.isSome) := by
    rw [Bool.eq_iff_iff, beq_iff_eq]
  have he : s.hostWf = true ↔ s.prog.length ≤ maxSequence ∧
      (s.hpcPast = true → s.hpc = 0#16 ∧ s.prog.length = maxSequence) ∧
      (s.hmode = .halt ↔ s.hret.isSome) ∧ (s.hmode = .wait → s.wordAtHpc.isSome) := by
    simp [State.hostWf, or_iff_not_imp_left, and_assoc, hret]
  exact he.trans ⟨fun ⟨a, b, c, d⟩ => ⟨a, b, c, d⟩, fun ⟨a, b, c, d⟩ => ⟨a, b, c, d⟩⟩

theorem inv_iff : s.Inv ↔ BlockInv s ∧ HostInv s := by
  unfold State.Inv
  rw [transferWf_iff, buffersWf_iff, receiveWf_iff, flagsWf_iff, causeWf_iff, hostWf_iff]
  simp only [State.handleWf, State.paramsWf, decide_eq_true_eq]
  constructor
  · rintro ⟨hb, ⟨hp, hr, hf⟩, hx, ⟨hg, hc, ho⟩, hca, ⟨ht, ht', hh⟩, hhost, hl⟩
    exact ⟨⟨⟨hf, hc, ho, hca, ⟨ht, ht'⟩, hh, hl⟩, fun h => ⟨hb h, hp h, hr, hx h, (hg h).1, (hg h).2⟩⟩, hhost⟩
  · rintro ⟨⟨⟨hf, hc, ho, hca, ⟨ht, ht'⟩, hh, hl⟩, hb⟩, hhost⟩
    exact ⟨fun h => (hb h).toBookkeeping, ⟨fun h => (hb h).payload, fun h => (hb (by simp [h])).received h, hf⟩,
      fun h => (hb h).reading, ⟨fun h => ⟨(hb h).flags, (hb h).samples⟩, hc, ho⟩, hca, ⟨ht, ht', hh⟩, hhost, hl⟩

theorem TransferInv.curN_le (T : TransferInv s) : s.curN ≤ 6 := T.count.2.trans s.curOp.maxCount_le

theorem written_iff {buf : List (Option Byte)} {k : Nat} :
    written buf k = true ↔ ∀ j < k, ∃ b, buf[j]? = some (some b) := by
  simp only [written, Bool.and_eq_true, decide_eq_true_eq, List.all_eq_true]
  constructor
  · rintro ⟨hl, ha⟩ j hj
    have hsome := ha buf[j] (List.mem_take_iff_getElem.2 ⟨j, by omega, rfl⟩)
    obtain ⟨b, hb⟩ := Option.isSome_iff_exists.1 hsome
    exact ⟨b, by rw [List.getElem?_eq_getElem (by omega), hb]⟩
  · intro h
    constructor
    · by_contra hl
      obtain ⟨b, hb⟩ := h buf.length (by omega)
      simp at hb
    · intro x hx
      obtain ⟨j, hj, rfl⟩ := List.mem_take_iff_getElem.1 hx
      obtain ⟨b, hb⟩ := h j (by omega)
      obtain ⟨hl, hb⟩ := List.getElem?_eq_some_iff.1 hb
      simp [hb]

theorem written_set_succ {buf : List (Option Byte)} {k : Nat} (h : written buf k) (hk : k < buf.length) (b : Byte) :
    written (buf.set k (some b)) (k + 1) := by
  rw [written_iff] at h ⊢
  intro j hj
  obtain rfl | hlt : j = k ∨ j < k := by omega
  · exact ⟨b, by simp [hk]⟩
  · obtain ⟨c, hc⟩ := h j hlt
    exact ⟨c, by rw [List.getElem?_set_ne (by omega), hc]⟩

theorem written_payload (b0 b1 b2 : Byte) {k : Nat} (hk : k ≤ 3) : written (payload b0 b1 b2).toList k := by
  interval_cases k <;> rfl

/-- Of the block's fields a sample writes only CNT and H (R110). -/
theorem sampledState_eq (f : Flag) (s : State) : sampledState f s =
    { s with
      cnt := s.cnt + 1#14, h := s.h ++ [.poll f (s.sampled f)], envInput := s.envInput.tail
      envCount := s.envCount + 1 } := rfl

/-- A sample and a capture add byte IDX to the written ones; of the block's fields they write only RXBUF, CNT and H
(R110, R122). -/
theorem sampled_capture_eq (f : Flag) (hw : written s.rxbuf.toList s.curIdx.toNat) (hi : s.curIdx.toNat < 6) :
    ∃ buf es cs k, written buf.toList (s.curIdx.toNat + 1) ∧ (sampledState f s).capture =
      { s with rxbuf := buf, cnt := s.cnt + 1#14, h := es, envInput := cs, envCount := k } := by
  rw [sampledState_eq]
  refine ⟨_, _, _, _, ?_, rfl⟩
  rw [Vector.toList_setIfInBounds]
  exact written_set_succ hw (by simpa using hi) _

end Sys2Proof.Machine
end

section
/-! SUPPORT. The block's invariant is kept by every agent's effect. A clause that reads no written field is taken over from
the state before by structure update. -/

namespace Sys2Proof.Machine

variable {s t : State} {i : Instr}

/-- A command that ends, with CAUSE matching its result, leaves the block's invariant (R27, R30). -/
theorem AnyPhaseInv.complete {c : Cause} {r : Bool} (A : AnyPhaseInv s) (hr : r = true ↔ c = .none) :
    BlockInv (s.complete c r) :=
  { A with transfer := fun h => absurd rfl h, result := nofun, cause := fun _ => hr }

theorem AnyPhaseInv.abort {c : Cause} (A : AnyPhaseInv s) (hc : c ≠ .none) : BlockInv (s.abort c) := by
  rw [abort_eq]
  exact { A with transfer := fun h => absurd rfl h, result := nofun, cause := fun _ => by simp [hc] }

theorem AnyPhaseInv.commitPair (A : AnyPhaseInv s) (m : DecodeNumerics) (q r : BitVec 20) :
    AnyPhaseInv (s.commitPair (tempX10 m q) (humX10 m r)) := by
  have ht := tempX10_bounds m q
  have hh := humX10_bounds m r
  refine { A with temp := ?_, hum := ?_ }
  · rwa [State.commitPair_tempX10, toInt_store16 (by omega) (by omega)]
  · rwa [State.commitPair_humX10, toInt_store16 (by omega) (by omega)]

theorem Effect.blockInv_of_command (hb : BlockInv s) (hc : i.cls = .command) (h : Effect s i t) : BlockInv t := by
  have A := hb.toAnyPhaseInv
  cases h with
  | init => exact AnyPhaseInv.complete { A with } (by decide)
  | clr => exact AnyPhaseInv.complete { A with temp := temp_zero, hum := hum_zero } (by decide)
  | noFrame => exact A.complete (by decide)
  | sensorBusy => exact A.complete (by decide)
  | decode => exact (A.commitPair _ _ _).complete (by decide)
  | write _ hi hk =>
    obtain ⟨⟨hl, hu⟩, b0, b1, b2, rfl⟩ := payloadOf_cases hk
    refine { A with samples_le := Nat.zero_le _, result := fun _ => rfl, cause := nofun, transfer := fun _ => ?_ }
    exact {
      op := rfl, n := rfl, idx := rfl, count := ⟨hl, hu⟩, sending := nofun, receiving := nofun
      payload := fun _ => written_payload b0 b1 b2 hu
      received := nofun, reading := nofun, flags := ⟨hi, rfl, rfl⟩, samples := A.limit }
  | read _ hi hk =>
    refine { A with
      frame := nofun, samples_le := Nat.zero_le _, result := fun _ => rfl, cause := nofun, transfer := fun _ => ?_ }
    exact {
      op := rfl, n := rfl, idx := rfl, count := readLengthOf_bounds hk, sending := nofun, receiving := nofun
      payload := nofun, received := nofun, reading := fun _ => ⟨rfl, rfl⟩, flags := ⟨hi, rfl, rfl⟩
      samples := A.limit }
  | ret hi => cases hc.symm.trans (cls_of_ret hi).2
  | addr hi => cases hc.symm.trans (cls_of_addr hi)
  | delay | jump | fall => cases hc

theorem Effect.blockInv_of_hostWord (hb : BlockInv s) (hc : i.cls = .hostWord) (h : Effect s i t) : BlockInv t := by
  cases h with
  | delay | jump | fall | ret => exact { hb with transfer := fun hp => { hb.transfer hp with } }
  | addr hi => cases hc.symm.trans (cls_of_addr hi)
  | write _ _ hk => cases hc.symm.trans (cls_of_payloadOf hk)
  | read _ _ hk => cases hc.symm.trans (cls_of_readLengthOf hk)
  | _ => cases hc

/-- CNT does not wrap below POLL_LIMIT (R29, R110). -/
theorem cnt_succ (h : s.cnt.toNat < s.pollLimit.toNat) : (s.cnt + 1#14).toNat = s.cnt.toNat + 1 := by
  have := s.pollLimit.isLt
  bv_omega

theorem cnt_succ_lt (h : s.cnt.toNat < s.pollLimit.toNat) (hc : s.cnt + 1#14 ≠ s.pollLimit) :
    (s.cnt + 1#14).toNat < s.pollLimit.toNat := by
  have hne : (s.cnt + 1#14).toNat ≠ s.pollLimit.toNat := fun h => hc (BitVec.eq_of_toNat_eq h)
  have := cnt_succ h
  omega

/-- IDX + 1 does not wrap below N (R115, R122). -/
theorem idx_succ {j : BitVec 3} {n : Nat} (h : j.toNat + 1 < n) (hn : n ≤ 6) : (j + 1#3).toNat = j.toNat + 1 := by
  bv_omega

theorem AnyPhaseInv.sampled (A : AnyPhaseInv s) (f : Flag) (h : s.cnt.toNat < s.pollLimit.toNat) :
    AnyPhaseInv (sampledState f s) :=
  { A with samples_le := (cnt_succ h).trans_le h }

/-- A byte captured with more to come (R122): IDX moves past the byte that was just written. -/
theorem BlockInv.nextRx (hb : BlockInv s) (hp : s.phase = .wRxne) (hi : s.curIdx.toNat + 1 < s.curN) :
    BlockInv { (sampledState .rxne s).capture.emit (ackctl (s.curIdx.toNat + 1) s.curN) with
      idx := some (s.curIdx + 1#3), cnt := 0#14 } := by
  have A := hb.toAnyPhaseInv
  have T := hb.transfer (by simp [hp])
  obtain ⟨ho, hlt⟩ := T.receiving hp
  have hx := idx_succ hi T.curN_le
  obtain ⟨buf, _, _, _, hw, he⟩ := sampled_capture_eq .rxne (T.received hp) (hlt.trans_le T.curN_le)
  rw [he]
  refine { A with
    frame := fun hv => ?_
    samples_le := Nat.zero_le _
    transfer := fun _ => { T with
      idx := rfl, sending := fun h => ?_, receiving := fun _ => ⟨ho, hx.trans_lt hi⟩
      received := fun _ => hx ▸ hw, samples := A.limit } }
  · cases (T.reading ho).1.symm.trans hv
  · cases hp.symm.trans h

/-- The last byte captured (R122): it completes the RXLEN bytes that RXVALID vouches for. -/
theorem BlockInv.lastRx (hb : BlockInv s) (hp : s.phase = .wRxne) (hi : ¬ s.curIdx.toNat + 1 < s.curN) :
    BlockInv ({ (sampledState .rxne s).capture.emit .stop with rxvalid := true }.complete .none true) := by
  have T := hb.transfer (by simp [hp])
  have A := hb.sampled .rxne T.samples
  obtain ⟨ho, hlt⟩ := T.receiving hp
  obtain ⟨buf, _, _, _, hw, he⟩ := sampled_capture_eq .rxne (T.received hp) (hlt.trans_le T.curN_le)
  have hlen : s.rxlen.toNat = s.curIdx.toNat + 1 := (T.reading ho).2.trans (by omega)
  rw [he]
  refine AnyPhaseInv.complete ?_ (by decide)
  exact { A with frame := fun _ => hlen ▸ hw }

theorem XactEffect.blockInv (hb : BlockInv s) (hp : s.phase ≠ .idle) (h : XactEffect s t) : BlockInv t := by
  have A := hb.toAnyPhaseInv
  have T := hb.transfer hp
  have hS (f : Flag) : AnyPhaseInv (sampledState f s) := A.sampled f T.samples
  cases h with
  | @stay _ f _ _ _ _ hc =>
    exact { hS f with transfer := fun _ => { T with samples := cnt_succ_lt T.samples hc } }
  | address =>
    rw [sampledState_eq]
    exact { A with
      samples_le := Nat.zero_le _
      transfer := fun _ => { T with
        sending := nofun, receiving := nofun, received := nofun, samples := A.limit } }
  | busBusy => exact (hS .busy).complete (by decide)
  | firstTx _ _ ho =>
    exact { A with
      samples_le := Nat.zero_le _
      transfer := fun _ => { T with
        idx := rfl, sending := fun _ => ⟨ho, T.count.1⟩, receiving := nofun, received := nofun
        samples := A.limit } }
  | firstAck _ _ ho =>
    exact { A with
      samples_le := Nat.zero_le _
      transfer := fun _ => { T with
        idx := rfl, sending := nofun, receiving := fun _ => ⟨ho, T.count.1⟩, received := fun _ => rfl
        samples := A.limit } }
  | nextTx hp _ hi =>
    have hx := idx_succ hi T.curN_le
    rw [sampledState_eq]
    refine { A with
      samples_le := Nat.zero_le _
      transfer := fun _ => { T with
        idx := rfl, sending := fun _ => ⟨(T.sending hp).1, hx.trans_lt hi⟩
        receiving := fun h => ?_, received := fun h => ?_, samples := A.limit } }
    · cases hp.symm.trans h
    · cases hp.symm.trans h
  | lastTx => exact AnyPhaseInv.complete (s := (sampledState .btf s).emit .stop) { hS .btf with } (by decide)
  | nextRx hp _ hi => exact hb.nextRx hp hi
  | lastRx hp _ hi => exact hb.lastRx hp hi
  | @abort _ f c hm =>
    have hc : c ≠ .none := by
      rintro rfl
      simp at hm
    exact (hS f).abort hc

end Sys2Proof.Machine
end

section
/-! SUPPORT. The HOST's invariant, and with it the machine's, is kept by every agent's effect. -/

namespace Sys2Proof.Machine

variable {s t : State} {i : Instr}

theorem HostInv.of_sameHost (hs : HostInv s) (h : SameHost s t) : HostInv t where
  length := by rw [h.prog]; exact hs.length
  past := by rw [h.hpc, h.hpcPast, h.prog]; exact hs.past
  hret := by rw [h.hmode, h.hret]; exact hs.hret
  waiting := by rw [h.hmode, h.wordAtHpc_eq]; exact hs.waiting

/-- HPC moves past index 0xFFFF only from a word there, so PROG has all 65536 words (R160, R161). -/
theorem HostInv.nextWord (hs : HostInv s) (hm : s.hmode ≠ .wait) (hw : s.wordAtHpc.isSome) : HostInv s.nextWord := by
  obtain ⟨w, hw⟩ := Option.isSome_iff_exists.1 hw
  obtain ⟨hp, hg⟩ := wordAtHpc_eq_some.1 hw
  have hl : s.hpc.toNat < s.prog.length := (List.getElem?_eq_some_iff.1 hg).1
  refine { hs with past := fun hpast => ?_, waiting := fun h => absurd h hm }
  have he : s.hpc = 0xFFFF#16 := by simpa [hp] using hpast
  rw [he] at hl
  exact ⟨by simp [he], Nat.le_antisymm hs.length hl⟩

theorem HostInv.jumpTo {j : BitVec 16} (hs : HostInv s) (hj : j.toNat < s.prog.length) : HostInv (s.jumpTo j) :=
  { hs with past := nofun, waiting := fun _ => by simp [State.wordAtHpc, hj] }

theorem HostInv.halt (hs : HostInv s) (v : RetVal) : HostInv { s with hret := some v, hmode := .halt } :=
  { hs with hret := by simp, waiting := nofun }

theorem HostInv.wait (hs : HostInv s) (hm : s.hmode = .run) (hw : s.wordAtHpc.isSome) :
    HostInv { s with hmode := .wait } :=
  { hs with hret := by simpa [hm] using hs.hret, waiting := fun _ => hw }

theorem HostInv.resume (hs : HostInv s) (hm : s.hmode = .wait) : HostInv { s with hmode := .run } :=
  { hs with hret := by simpa [hm] using hs.hret, waiting := nofun }

theorem Effect.hostInv_of_hostWord (hs : HostInv s) (hc : i.cls = .hostWord) (hm : s.hmode = .run)
    (hw : s.wordAtHpc.isSome) (h : Effect s i t) : HostInv t := by
  cases h with
  | delay => exact HostInv.nextWord (s := s.emit _) { hs with } (by simp [hm]) hw
  | jump hl => exact hs.jumpTo hl
  | fall => exact hs.nextWord (by simp [hm]) hw
  | ret => exact hs.halt _
  | addr hi => cases hc.symm.trans (cls_of_addr hi)
  | write _ _ hk => cases hc.symm.trans (cls_of_payloadOf hk)
  | read _ _ hk => cases hc.symm.trans (cls_of_readLengthOf hk)
  | _ => cases hc

theorem XactEffect.inv (hs : s.Inv) (hp : s.phase ≠ .idle) (h : XactEffect s t) : t.Inv := by
  obtain ⟨hb, hh⟩ := inv_iff.1 hs
  exact inv_iff.2 ⟨h.blockInv hb hp, hh.of_sameHost h.sameHost⟩

theorem Effect.inv_of_command (hs : s.Inv) (hc : i.cls = .command) (h : Effect s i t) : t.Inv := by
  obtain ⟨hb, hh⟩ := inv_iff.1 hs
  exact inv_iff.2 ⟨h.blockInv_of_command hb hc, hh.of_sameHost (h.sameHost_of_command hc)⟩

theorem SeqEffect.inv (hs : s.Inv) (h : SeqEffect s t) : t.Inv := by
  obtain ⟨hb, hh⟩ := inv_iff.1 hs
  rw [inv_iff]
  cases h with
  | cmd hm hw _ hc he =>
    have hb' := he.blockInv_of_command hb hc
    have hsame := he.sameHost_of_command hc
    have hh' := (hh.of_sameHost hsame).wait (hsame.hmode.trans hm) (by simp [hsame.wordAtHpc_eq, hw])
    exact ⟨{ hb' with transfer := fun hp => { hb'.transfer hp with } }, hh'⟩
  | host hm hw _ hc he =>
    exact ⟨he.blockInv_of_hostWord hb hc, he.hostInv_of_hostWord hh hc hm (by simp [hw])⟩
  | wait hm _ =>
    have hh' := (hh.resume hm).nextWord (by simp) (hh.waiting hm)
    exact ⟨{ hb with transfer := fun hp => { hb.transfer hp with } }, hh'⟩

end Sys2Proof.Machine
end

section
/-! SUPPORT. The HOST's register accesses as steps (10_state.md R22 to R26). -/

namespace Sys2Proof.Machine

variable {s : State} {r : BitVec 8} {rest : List Turn}

/-- STATUS bit by bit (R23). -/
theorem status_getLsbD (s : State) (i : Nat) :
    s.status.getLsbD i = [s.idleBit, s.okv, s.ok, s.initd].getD i false := by
  simp only [State.status, BitVec.getLsbD_setWidth, BitVec.getLsbD_append, BitVec.getLsbD_ofBool]
  rcases i with _ | _ | _ | _ | i <;> simp

theorem readReg_eq_none (hs : r ≠ regStatus) (ht : r ≠ regTemp) (hh : r ≠ regHum) : s.readReg r = none := by
  simp [State.readReg, hs, ht, hh]

/-- A listed register read: the step is the read (R62, R26). -/
theorem step_of_readTurn (hf : s.fault = none) (h : s.turns = .read r :: rest) :
    step s = thenTurns rest (regRead r s) := by
  simp [step, agentStep, hf, h, takeTurns]

/-- A listed register write: the step is the write (R62, R26). -/
theorem step_of_writeTurn {w : Word} (hf : s.fault = none) (h : s.turns = .write r w :: rest) :
    step s = thenTurns rest (regWrite r w s) := by
  simp [step, agentStep, hf, h, takeTurns]

theorem step_of_readable {v : Word} (hf : s.fault = none) (h : s.turns = .read r :: rest)
    (hr : s.readReg r = some v) : step s = .next { s with turns := rest, readData := some v } := by
  simp [step_of_readTurn hf h, regRead, hf, hr, thenTurns]

theorem step_of_unreadable (hf : s.fault = none) (h : s.turns = .read r :: rest) (hr : s.readReg r = none) :
    step s = .next { s with fault := some .badAccess } := by
  simp [step_of_readTurn hf h, regRead, hf, hr, thenTurns]

theorem step_of_unwritable {w : Word} (hf : s.fault = none) (h : s.turns = .write r w :: rest) (hr : r ≠ regCmd) :
    step s = .next { s with fault := some .badAccess } := by
  simp [step_of_writeTurn hf h, regWrite, hf, hr, thenTurns]

end Sys2Proof.Machine
end

section
/-! The obligations of 10_state.md: the registers, the handle, H, PROG and HRET, and the invariant. -/

namespace Sys2Proof.Machine

/-- Settles O56: each agent's effect keeps the block's and the HOST's part of the invariant, which says nothing of
FAULT, of the turns listed and of the value last read. -/
theorem stepKeepsInvariant : Obligations.StepKeepsInvariant := by
  intro s t hs h
  obtain ⟨-, he⟩ := step_effect h
  cases he with
  | fault => exact hs
  | @xact u _ hp he => exact show u.Inv from he.inv hs hp
  | @seq u _ he => exact show u.Inv from he.inv hs
  | read => exact hs
  | @cmd _ _ u _ _ _ hc he => exact show u.Inv from he.inv_of_command hs hc

/-- Settles O57: PHASE is IDLE, no frame is valid and the handle is zero, so every part of the invariant computes. -/
theorem resetMeetsInvariant : Obligations.ResetMeetsInvariant :=
  ⟨rfl, rfl, rfl, rfl, rfl, rfl, rfl, rfl⟩

/-- Settles O42, from STATUS bit by bit and the invariant's clause on OKV and OK. -/
theorem statusLayout : Obligations.StatusLayout := by
  refine ⟨fun s => ⟨status_getLsbD s 0, status_getLsbD s 1, status_getLsbD s 2, status_getLsbD s 3, fun i hi => ?_⟩,
    fun s hs => (inv_iff.1 hs).1.result⟩
  rw [status_getLsbD, List.getD_eq_default _ _ hi]

/-- Settles O43: each register number is one of the three readable ones or a BAD_ACCESS. -/
theorem registerAccess : Obligations.RegisterAccess := by
  intro s r w rest hf
  refine ⟨fun ht => ⟨?_, ?_, ?_, ?_⟩, fun ht hr => step_of_unwritable hf ht hr⟩
  · rintro rfl
    exact step_of_readable hf ht rfl
  · rintro rfl
    exact step_of_readable hf ht rfl
  · rintro rfl
    exact step_of_readable hf ht rfl
  · intro hs ht' hh
    exact step_of_unreadable hf ht (readReg_eq_none hs ht' hh)

/-- Settles O51: of the words the HOST may issue, only a CLR and a DEC that succeeds write the handle. -/
theorem handleWriters : Obligations.HandleWriters := by
  refine ⟨fun s t h => ?_, fun s t h hf => ?_, fun s t h hf => ?_⟩
  · obtain ⟨-, he⟩ := step_effect h
    obtain hkept | ⟨w, i, u, hw, hd, he, ht, hh, hv, ho⟩ := he.handle_cases
    · exact .inl hkept
    · rw [ht, hh, hv, ho]
      obtain hkept | ⟨hv, ho, ⟨rfl, hclr⟩ | ⟨rfl, hdec⟩⟩ := he.handle_cases
      · exact .inl hkept
      · exact .inr ⟨hv, ho, w, hw, .inl ⟨hd, hclr⟩⟩
      · exact .inr ⟨hv, ho, w, hw, .inr ⟨hd, hdec⟩⟩
  · obtain ⟨-, ⟨-, rfl⟩ | ⟨-, -, rfl⟩ | ⟨-, -, -, -, rfl⟩ | ⟨-, -, -, -, rfl⟩⟩ := execDec_cases h
    · cases hf
    · exact .inr ⟨rfl, rfl, rfl⟩
    · exact .inr ⟨rfl, rfl, rfl⟩
    · exact .inl ⟨rfl, rfl, rfl⟩
  · obtain ⟨-, ⟨-, rfl⟩ | ⟨-, rfl⟩⟩ := execClr_cases h
    · cases hf
    · exact ⟨rfl, rfl⟩

/-- Settles O52: every agent only appends to H, and of the agents only XACT, which is not IDLE then, drives the wire. -/
theorem historyGrows : Obligations.HistoryGrows := by
  intro s t h
  obtain ⟨-, he⟩ := step_effect h
  cases he with
  | fault | read => exact ⟨⟨[], List.append_nil _⟩, fun _ => rfl⟩
  | xact hp he => exact ⟨he.history_extends, fun h => absurd h hp⟩
  | seq he => exact ⟨he.history.1, fun _ => he.history.2⟩
  | cmd _ _ hc he =>
    have hw := he.wire_eq (by simp [hc])
    exact ⟨he.history_extends, fun _ => hw⟩

/-- Settles O53: no effect writes PROG or a parameter, and the one that writes HRET is that of a RET at HPC. -/
theorem programAndReturnValue : Obligations.ProgramAndReturnValue := by
  intro s t h
  obtain ⟨-, he⟩ := step_effect h
  have hsame := he.sameParams
  refine ⟨hsame.prog, hsame.pollLimit, hsame.numerics, fun hne => ?_⟩
  obtain ⟨hh, hm, w, i, hw, hd, hi⟩ := he.hret_cases.resolve_left hne
  obtain ⟨hpast, hg⟩ := wordAtHpc_eq_some.1 hw
  exact ⟨hh, hm, w, hpast, hg, by simpa [hd] using hi⟩

end Sys2Proof.Machine
end

section
/-! SUPPORT. The fields of a word (30_encoding.md R70, R78): what each reads of a word written as a row of bytes or as
two halves, and that a word is its fields in a row. -/

namespace Sys2Proof

section Rows

theorem extractLsb'_append_add {m n : Nat} (x : BitVec m) (y : BitVec n) (k len : Nat) :
    (x ++ y).extractLsb' (k + n) len = x.extractLsb' k len := by
  rw [BitVec.extractLsb'_append_eq_of_le (Nat.le_add_left n k), Nat.add_sub_cancel]

variable (x b0 b1 b2 : Byte) (y z : BitVec 16)

@[simp] theorem opField_bytes : opField (x ++ b0 ++ b1 ++ b2) = x.extractLsb' 4 4 :=
  calc
    _ = (x ++ b0 ++ b1).extractLsb' 20 4 := extractLsb'_append_add ..
    _ = (x ++ b0).extractLsb' 12 4 := extractLsb'_append_add ..
    _ = _ := extractLsb'_append_add ..

@[simp] theorem nField_bytes : nField (x ++ b0 ++ b1 ++ b2) = x.extractLsb' 0 4 :=
  calc
    _ = (x ++ b0 ++ b1).extractLsb' 16 4 := extractLsb'_append_add ..
    _ = (x ++ b0).extractLsb' 8 4 := extractLsb'_append_add ..
    _ = _ := extractLsb'_append_add ..

@[simp] theorem b0Field_bytes : b0Field (x ++ b0 ++ b1 ++ b2) = b0 :=
  calc
    _ = (x ++ b0 ++ b1).extractLsb' 8 8 := extractLsb'_append_add ..
    _ = (x ++ b0).extractLsb' 0 8 := extractLsb'_append_add ..
    _ = b0 := BitVec.extractLsb'_append_eq_right

@[simp] theorem b1Field_bytes : b1Field (x ++ b0 ++ b1 ++ b2) = b1 :=
  calc
    _ = (x ++ b0 ++ b1).extractLsb' 0 8 := extractLsb'_append_add ..
    _ = b1 := BitVec.extractLsb'_append_eq_right

@[simp] theorem b2Field_bytes : b2Field (x ++ b0 ++ b1 ++ b2) = b2 :=
  BitVec.extractLsb'_append_eq_right

@[simp] theorem opField_halves : opField (y ++ z) = y.extractLsb' 12 4 :=
  extractLsb'_append_add ..

@[simp] theorem hostZero_halves : hostZero (y ++ z) = y.extractLsb' 0 12 :=
  extractLsb'_append_add ..

@[simp] theorem hostArg_halves : hostArg (y ++ z) = z :=
  BitVec.extractLsb'_append_eq_right

end Rows

section Word

variable (w : Word)

theorem opField_append_belowOp : opField w ++ belowOp w = w :=
  BitVec.extractLsb'_append_extractLsb'

theorem opField_append_nField : opField w ++ nField w = w.extractLsb' 24 8 :=
  BitVec.extractLsb'_append_extractLsb'_eq_extractLsb' rfl

theorem opField_append_nField_append_belowN : opField w ++ nField w ++ belowN w = w := by
  rw [opField_append_nField]
  exact BitVec.extractLsb'_append_extractLsb'

/-- A word is OP, N and its three bytes in a row (R70). -/
theorem word_eq_bytes : opField w ++ nField w ++ b0Field w ++ b1Field w ++ b2Field w = w := by
  have h0 : w.extractLsb' 24 8 ++ b0Field w = w.extractLsb' 16 16 :=
    BitVec.extractLsb'_append_extractLsb'_eq_extractLsb' rfl
  have h1 : w.extractLsb' 16 16 ++ b1Field w = w.extractLsb' 8 24 :=
    BitVec.extractLsb'_append_extractLsb'_eq_extractLsb' rfl
  rw [opField_append_nField, h0, h1]
  exact BitVec.extractLsb'_append_extractLsb'

theorem opField_append_hostZero : opField w ++ hostZero w = w.extractLsb' 16 16 :=
  BitVec.extractLsb'_append_extractLsb'_eq_extractLsb' rfl

/-- A host word is OP, the twelve bits below it and its argument in a row (R78). -/
theorem word_eq_halves : opField w ++ hostZero w ++ hostArg w = w := by
  rw [opField_append_hostZero]
  exact BitVec.extractLsb'_append_extractLsb'

theorem retZero_append_retV : retZero w ++ retV w = hostArg w :=
  BitVec.extractLsb'_append_extractLsb'_eq_extractLsb' rfl

end Word

end Sys2Proof
end

section
/-! SUPPORT. The decoder and the encoder are inverse to each other (30_encoding.md R71 to R80, R90). -/

namespace Sys2Proof

/-- The decoder gives an encoded instruction's expansion (R71 to R80, R90): the fields of a word with operands are
read by the lemmas on rows, every other word is one number. -/
theorem decodeBits_encode (i : Instr) : decodeBits i.width (encode i) = .ok i.core := by
  cases i with
  | xw1 | xw2 | xw3 => simp [decodeBits, Instr.width, encode, decodeWord, decodeXw, guardZero, Instr.core]
  | delay | jf => simp [decodeBits, Instr.width, encode, decodeWord, guardZero, Instr.core]
  | _ => rfl

theorem guardZero_eq_ok {c : Bool} {i j : Instr} : guardZero c i = .ok j ↔ c = true ∧ i = j := by
  cases c <;> simp [guardZero]

theorem guardZero_eq_error {c : Bool} {i : Instr} {r : Reject} (h : guardZero c i = .error r) : c = false := by
  cases c
  · rfl
  · cases h

variable {w : Word} {i : Instr}

/-- A legal XW is its fields in a row, so its encoding is the word (R74). -/
theorem encode_of_decodeXw (ho : opField w = 3#4) (h : decodeXw w = .ok i) :
    encode i = w ∧ i.core = i ∧ i.width = 32 := by
  have hw := word_eq_bytes w
  unfold decodeXw at h
  split at h
  case h_1 hn =>
    simp only [guardZero_eq_ok, Bool.and_eq_true, beq_iff_eq] at h
    obtain ⟨⟨h1, h2⟩, rfl⟩ := h
    rw [ho, BitVec.eq_of_toNat_eq (y := 1#4) hn, h1, h2] at hw
    exact ⟨hw, rfl, rfl⟩
  case h_2 hn =>
    simp only [guardZero_eq_ok, beq_iff_eq] at h
    obtain ⟨h2, rfl⟩ := h
    rw [ho, BitVec.eq_of_toNat_eq (y := 2#4) hn, h2] at hw
    exact ⟨hw, rfl, rfl⟩
  case h_3 hn =>
    cases h
    rw [ho, BitVec.eq_of_toNat_eq (y := 3#4) hn] at hw
    exact ⟨hw, rfl, rfl⟩
  case h_4 => cases h

/-- A legal XR is OP, N and zeros (R75). -/
theorem encode_of_decodeXr (ho : opField w = 4#4) (h : decodeXr w = .ok i) :
    encode i = w ∧ i.core = i ∧ i.width = 32 := by
  have hw := opField_append_nField_append_belowN w
  have hn : nField w = BitVec.ofNat 4 (nField w).toNat := by simp
  rw [ho, hn] at hw
  unfold decodeXr at h
  split at h
  case h_7 => cases h
  case h_1 hk | h_2 hk | h_3 hk | h_4 hk | h_5 hk | h_6 hk =>
    simp only [guardZero_eq_ok, beq_iff_eq] at h
    obtain ⟨hz, rfl⟩ := h
    rw [hk, hz] at hw
    exact ⟨hw, rfl, rfl⟩

/-- A legal RET is OP, v and zeros between them (R78). -/
theorem encode_of_decodeRet (ho : opField w = 10#4) (h : decodeRet w = .ok i) :
    encode i = w ∧ i.core = i ∧ i.width = 32 := by
  have hw := word_eq_halves w
  have hv : retV w = BitVec.ofNat 2 (retV w).toNat := by simp
  rw [ho, ← retZero_append_retV, hv] at hw
  unfold decodeRet at h
  split at h
  case h_4 => cases h
  case h_1 hk | h_2 hk | h_3 hk =>
    simp only [guardZero_eq_ok, Bool.and_eq_true, beq_iff_eq] at h
    obtain ⟨⟨hz, hr⟩, rfl⟩ := h
    rw [hk, hz, hr] at hw
    exact ⟨hw, rfl, rfl⟩

/-- A word that decodes is a core instruction's encoding (R77). -/
theorem encode_of_decodeWord (h : decodeWord w = .ok i) : encode i = w ∧ i.core = i ∧ i.width = 32 := by
  have hop : opField w = BitVec.ofNat 4 (opField w).toNat := by simp
  have hbelow := opField_append_belowOp w
  have hhalves := word_eq_halves w
  unfold decodeWord at h
  split at h
  case h_3 ho => exact encode_of_decodeXw (BitVec.eq_of_toNat_eq ho) h
  case h_4 ho => exact encode_of_decodeXr (BitVec.eq_of_toNat_eq ho) h
  case h_8 ho => exact encode_of_decodeRet (BitVec.eq_of_toNat_eq ho) h
  case h_9 => cases h
  case h_6 ho | h_7 ho =>
    simp only [guardZero_eq_ok, beq_iff_eq] at h
    obtain ⟨hz, rfl⟩ := h
    rw [hop, ho, hz] at hhalves
    exact ⟨hhalves, rfl, rfl⟩
  case h_1 ho | h_2 ho | h_5 ho =>
    simp only [guardZero_eq_ok, beq_iff_eq] at h
    obtain ⟨hz, rfl⟩ := h
    rw [hop, ho, hz] at hbelow
    exact ⟨hbelow, rfl, rfl⟩

/-- A wire byte that decodes is TARGET_ADDR and the direction bit (R80). -/
theorem encode_of_decodeAddr {b : Byte} (h : decodeAddr b = .ok i) : encode i = b.setWidth 32 ∧ i.width = 8 := by
  have hb : b.extractLsb' 1 7 ++ b.extractLsb' 0 1 = b := BitVec.extractLsb'_append_extractLsb'
  unfold decodeAddr at h
  split at h
  case isFalse => cases h
  case isTrue ha =>
    rw [ha] at hb
    cases h
    rw [← hb]
    generalize b.extractLsb' 0 1 = rw
    revert rw
    decide

end Sys2Proof
end

section
/-! SUPPORT. The illegal command words are those that decode to no command (30_encoding.md R77). -/

namespace Sys2Proof.Machine

variable {w : Word} {i : Instr} {r : Reject}

theorem not_illegalCommand_encode (hw : i.width = 32) (hc : i.cls = .command) : ¬ IllegalCommand (encode i) := by
  cases i with
  | xw1 | xw2 | xw3 => simp [encode]
  | addrW | addrR => cases hw
  | delay | jf | retFalse | retTrue | retVoid => cases hc
  | _ => decide

theorem illegalCommand_encode (hw : i.width = 32) (hc : i.cls ≠ .command) : IllegalCommand (encode i) := by
  cases i with
  | addrW | addrR => cases hw
  | delay | jf => simp [encode, IllegalCommand]
  | retFalse | retTrue | retVoid => decide
  | _ => exact absurd rfl hc

theorem illegalCommand_of_decodeXw_error (ho : opField w = 3#4) (h : decodeXw w = .error r) : IllegalCommand w := by
  refine .inr (.inr (.inl ⟨ho, ?_⟩))
  unfold decodeXw at h
  split at h
  case h_1 hn =>
    have hz := guardZero_eq_error h
    simp only [Bool.and_eq_false_iff, beq_eq_false_iff_ne] at hz
    exact .inr (.inl ⟨BitVec.eq_of_toNat_eq hn, hz⟩)
  case h_2 hn => exact .inr (.inr ⟨BitVec.eq_of_toNat_eq hn, by simpa using guardZero_eq_error h⟩)
  case h_3 => cases h
  case h_4 h1 h2 h3 => exact .inl ⟨ne_of_apply_ne _ h1, ne_of_apply_ne _ h2, ne_of_apply_ne _ h3⟩

theorem illegalCommand_of_decodeXr_error (ho : opField w = 4#4) (h : decodeXr w = .error r) : IllegalCommand w := by
  refine .inr (.inr (.inr ⟨ho, ?_⟩))
  unfold decodeXr at h
  split at h
  case h_7 =>
    have hn : nField w = 0#4 ∨ 7 ≤ (nField w).toNat := by
      simp only [imp_false] at *
      bv_omega
    exact hn.imp_right .inl
  case h_1 | h_2 | h_3 | h_4 | h_5 | h_6 => exact .inr (.inr (by simpa using guardZero_eq_error h))

theorem illegalCommand_of_decodeWord_error (h : decodeWord w = .error r) : IllegalCommand w := by
  unfold decodeWord at h
  split at h
  case h_3 ho => exact illegalCommand_of_decodeXw_error (BitVec.eq_of_toNat_eq ho) h
  case h_4 ho => exact illegalCommand_of_decodeXr_error (BitVec.eq_of_toNat_eq ho) h
  case h_1 ho | h_2 ho | h_5 ho =>
    have hz : belowOp w ≠ 0#28 := by simpa using guardZero_eq_error h
    exact .inr (.inl ⟨by bv_omega, hz⟩)
  case h_6 | h_7 | h_8 => exact .inl (by bv_omega)
  case h_9 =>
    simp only [imp_false] at *
    exact .inl (by bv_omega)

/-- A word is a legal command exactly when it decodes to one (R77). -/
theorem not_illegalCommand_iff : ¬ IllegalCommand w ↔ ∃ i, decodeWord w = .ok i ∧ i.cls = .command := by
  constructor
  · intro hl
    match hd : decodeWord w with
    | .error _ => exact absurd (illegalCommand_of_decodeWord_error hd) hl
    | .ok i =>
      obtain ⟨rfl, -, hw⟩ := encode_of_decodeWord hd
      refine ⟨i, rfl, ?_⟩
      by_contra hc
      exact hl (illegalCommand_encode hw hc)
  · rintro ⟨i, hd, hc⟩
    obtain ⟨rfl, -, hw⟩ := encode_of_decodeWord hd
    exact not_illegalCommand_encode hw hc

variable {s : State}

theorem cmdWrite_of_legal (hf : s.fault = none) (hp : s.phase = .idle) (hd : decodeWord w = .ok i)
    (hc : i.cls = .command) : cmdWrite w s = exec i s := by
  simp [cmdWrite, issue_idle hf hp, hd, hc]

theorem cmdWrite_of_illegal (hf : s.fault = none) (hp : s.phase = .idle) (hl : IllegalCommand w) :
    cmdWrite w s = .next { s with fault := some .illegalCmd } := by
  rw [cmdWrite, issue_idle hf hp]
  split
  case h_1 i hd =>
    have hc : i.cls ≠ .command := fun hc => not_illegalCommand_iff.2 ⟨i, hd, hc⟩ hl
    rw [if_neg hc, raise_eq]
  case h_2 => rfl

end Sys2Proof.Machine
end

section
/-! SUPPORT. The raw fields of a frame as shifts of its bytes (30_encoding.md R85). -/

namespace Sys2Proof.Machine

theorem humRaw_toNat (f : Frame) :
    f.humRaw.toNat = (f[1].toNat <<< 12) ||| (f[2].toNat <<< 4) ||| (f[3].toNat >>> 4) := by
  have h3 : f[3].toNat >>> 4 < 2 ^ 4 := by
    have := f[3].isLt
    omega
  simp only [Frame.humRaw, BitVec.toNat_append, BitVec.extractLsb'_toNat, Nat.mod_eq_of_lt h3,
    Nat.shiftLeft_or_distrib, ← Nat.shiftLeft_add]

theorem tempRaw_toNat (f : Frame) :
    f.tempRaw.toNat = ((f[3].toNat &&& 0x0F) <<< 16) ||| (f[4].toNat <<< 8) ||| f[5].toNat := by
  have h3 : f[3].toNat &&& 0x0F = f[3].toNat % 2 ^ 4 := Nat.and_two_pow_sub_one_eq_mod _ 4
  simp only [Frame.tempRaw, BitVec.toNat_append, BitVec.extractLsb'_toNat, h3, Nat.shiftRight_zero,
    Nat.shiftLeft_or_distrib, ← Nat.shiftLeft_add]

end Sys2Proof.Machine
end

section
/-! SUPPORT. An XW, an XR and a wire address byte where nothing stops them (40_transactor.md R101, R111). -/

namespace Sys2Proof.Machine

variable {s : State}

theorem issueXw_initd (n : BitVec 3) (b0 b1 b2 : Byte) (hf : s.fault = none) (hp : s.phase = .idle)
    (hi : s.initd = true) : issueXw n b0 b1 b2 s = .next { s.startTransfer .xw n with txbuf := payload b0 b1 b2 } := by
  rw [issueXw, issue_idle hf hp, if_pos hi]

theorem issueXr_initd (n : BitVec 3) (hf : s.fault = none) (hp : s.phase = .idle) (hi : s.initd = true) :
    issueXr n s = .next { s.startTransfer .xr n with rxvalid := false, rxlen := n } := by
  rw [issueXr, issue_idle hf hp, if_pos hi]

theorem driveAddress_running (rw : Bool) (hf : s.fault = none) :
    driveAddress rw s = .next { s.emit (.addr (addrByte rw)) with phase := .wAddr, cnt := 0#14 } :=
  whileRunning_running hf

end Sys2Proof.Machine
end

section
/-! SUPPORT. What a transfer puts on the wire (30_encoding.md R88), for both directions at once: a header, the events
of each byte, and STOP. -/

namespace Sys2Proof.Machine

variable {s t : State} {o : XferOp} {n k : Nat} {f g : Nat → Byte}

/-- Byte j of a transfer: sent from TXBUF or captured into RXBUF. -/
def State.byte (s : State) : XferOp → Nat → Byte
  | .xw => s.txByte
  | .xr => s.rxByte

theorem byte_xw_congr (h : t.txbuf = s.txbuf) : t.byte .xw = s.byte .xw := by
  funext j
  simp only [State.byte, State.txByte, h]

theorem byte_xr_congr (h : t.rxbuf = s.rxbuf) : t.byte .xr = s.byte .xr := by
  funext j
  simp only [State.byte, State.rxByte, h]

theorem byte_congr (ht : t.txbuf = s.txbuf) (hr : t.rxbuf = s.rxbuf) (o : XferOp) : t.byte o = s.byte o := by
  cases o
  · exact byte_xw_congr ht
  · exact byte_xr_congr hr

/-- START and the address byte of a direction (R80). -/
def wireHeader (o : XferOp) : List Event := [.start, .addr (addrByte (decide (o = .xr)))]

/-- The wire events of byte j of a transfer of n bytes (R88). -/
def byteEvents (o : XferOp) (n : Nat) (f : Nat → Byte) (j : Nat) : List Event :=
  match o with
  | .xw => [.tx (f j)]
  | .xr => [ackctl j n, .rx (f j)]

/-- The wire events of the first k bytes of a transfer of n bytes. -/
def bytesEvents (o : XferOp) (n : Nat) (f : Nat → Byte) (k : Nat) : List Event :=
  (List.range k).flatMap (byteEvents o n f)

/-- The wire events of a complete transfer of n bytes. -/
def wireShape (o : XferOp) (n : Nat) (f : Nat → Byte) : List Event := wireHeader o ++ bytesEvents o n f n ++ [.stop]

theorem bytesEvents_succ : bytesEvents o n f (k + 1) = bytesEvents o n f k ++ byteEvents o n f k := by
  simp [bytesEvents, List.range_succ]

theorem bytesEvents_congr (h : ∀ j < k, f j = g j) : bytesEvents o n f k = bytesEvents o n g k :=
  List.flatMap_congr fun j hj => by simp only [byteEvents, h j (List.mem_range.1 hj)]

theorem bytesEvents_prefix {m : Nat} (h : k ≤ m) : bytesEvents o n f k <+: bytesEvents o n f m := by
  obtain ⟨d, rfl⟩ := Nat.exists_eq_add_of_le h
  rw [bytesEvents, bytesEvents, List.range_add, List.flatMap_append]
  exact List.prefix_append _ _

theorem stop_not_mem_bytesEvents : Event.stop ∉ bytesEvents o n f k := by
  cases o <;> simp [bytesEvents, byteEvents, ackctl, apply_ite]

theorem xwShape_eq_wireShape : xwShape ((List.range n).map f) = wireShape .xw n f := by
  rw [xwShape, List.map_map, List.map_eq_flatMap]
  rfl

/-- The first byte's events and those of the n bytes after it. -/
theorem bytesEvents_succ_eq_append :
    bytesEvents o (n + 1) f (k + 1) = byteEvents o (n + 1) f 0 ++ bytesEvents o n (f ∘ Nat.succ) k := by
  have hnext (j : Nat) : byteEvents o (n + 1) f (j + 1) = byteEvents o n (f ∘ Nat.succ) j := by
    cases o <;> simp [byteEvents, ackctl]
  simp [bytesEvents, List.range_succ_eq_map, List.flatMap_map, hnext]

theorem rxShape_cons {b : Byte} {bs : List Byte} (h : bs ≠ []) : rxShape (b :: bs) = [.ack, .rx b] ++ rxShape bs := by
  obtain ⟨c, cs, rfl⟩ := List.exists_cons_of_ne_nil h
  rfl

/-- Of n bytes the last is acknowledged with NACK, as ackctl says (R121). -/
theorem rxShape_map_range : rxShape ((List.range n).map f) = bytesEvents .xr n f n := by
  induction n generalizing f with
  | zero => rfl
  | succ n ih =>
    rw [bytesEvents_succ_eq_append, ← ih, List.range_succ_eq_map, List.map_cons, List.map_map]
    obtain rfl | hn := n.eq_zero_or_pos
    · rfl
    · rw [rxShape_cons (by simpa using hn.ne')]
      simp [byteEvents, ackctl, hn.ne']

theorem xrShape_eq_wireShape : xrShape ((List.range n).map f) = wireShape .xr n f := by
  rw [xrShape, rxShape_map_range]
  rfl

end Sys2Proof.Machine
end

section
/-! SUPPORT. What a running transfer has put on the wire, by PHASE and IDX, and that this begins its shape
(30_encoding.md R88). -/

namespace Sys2Proof.Machine

variable {s u : State} {o : XferOp} {n k : Nat} {f g : Nat → Byte}

@[simp] theorem wire_append (h e : List Event) : wire (h ++ e) = wire h ++ wire e := List.filter_append ..

/-- What a transfer has put on the wire in phase p, at byte k. -/
def wireAt (o : XferOp) (n : Nat) (f : Nat → Byte) (p : Phase) (k : Nat) : List Event :=
  match p with
  | .idle => []
  | .wBusy => []
  | .wAddr => wireHeader o
  | .wBtf => wireHeader o ++ bytesEvents o n f (k + 1)
  | .wRxne => wireHeader o ++ bytesEvents o n f k ++ [ackctl k n]

/-- What the transfer that runs in state s has put on the wire. -/
def State.wireSoFar (s : State) : List Event :=
  wireAt s.curOp s.curN (s.byte s.curOp) s.phase s.curIdx.toNat

theorem wireSoFar_eq {p : Phase} (hp : s.phase = p) (ho : s.curOp = o) (hn : s.curN = n) (hf : s.byte o = f)
    (hk : s.curIdx.toNat = k) : s.wireSoFar = wireAt o n f p k := by
  rw [State.wireSoFar, hp, ho, hn, hf, hk]

theorem wireSoFar_eq_wireAt {p : Phase} (hp : s.phase = p) (ho : s.curOp = o) :
    s.wireSoFar = wireAt o s.curN (s.byte o) p s.curIdx.toNat :=
  wireSoFar_eq hp ho rfl rfl rfl

/-- A shape is complete only with its STOP, which no running transfer has driven yet. -/
theorem wireAt_ne_wireShape (p : Phase) : wireAt o n f p k ≠ wireShape o n g := by
  have hstop : Event.stop ∉ wireAt o n f p k := by
    cases p <;> simp [wireAt, wireHeader, stop_not_mem_bytesEvents, ackctl, apply_ite]
  exact (ne_of_mem_of_not_mem' (by simp [wireShape]) hstop).symm

theorem wireSoFar_ne_nil (hp : s.phase ≠ .idle) (hb : s.phase ≠ .wBusy) : s.wireSoFar ≠ [] := by
  unfold State.wireSoFar
  cases h : s.phase with
  | idle => exact absurd h hp
  | wBusy => exact absurd h hb
  | wAddr | wBtf | wRxne => simp [wireAt, wireHeader]

/-- A running transfer has put the beginning of its shape on the wire. -/
theorem TransferInv.wireSoFar_prefix (T : TransferInv s) :
    s.wireSoFar <+: wireShape s.curOp s.curN (s.byte s.curOp) := by
  unfold State.wireSoFar wireShape
  cases hp : s.phase with
  | idle | wBusy => exact List.nil_prefix
  | wAddr => exact (List.prefix_append _ _).trans (List.prefix_append _ _)
  | wBtf =>
    obtain ⟨-, hi⟩ := T.sending hp
    exact ((List.prefix_append_right_inj _).2 (bytesEvents_prefix hi)).trans (List.prefix_append _ _)
  | wRxne =>
    obtain ⟨ho, hi⟩ := T.receiving hp
    have hnext : bytesEvents .xr s.curN s.rxByte s.curIdx.toNat ++ [ackctl s.curIdx.toNat s.curN] <+:
        bytesEvents .xr s.curN s.rxByte (s.curIdx.toNat + 1) :=
      ⟨[.rx (s.rxByte s.curIdx.toNat)], by rw [bytesEvents_succ, List.append_assoc]; rfl⟩
    rw [ho, wireAt, List.append_assoc]
    exact ((List.prefix_append_right_inj _).2 (hnext.trans (bytesEvents_prefix hi))).trans (List.prefix_append _ _)

@[simp] theorem isWire_ackctl : (ackctl k n).isWire = true := by
  unfold ackctl
  split <;> rfl

theorem wire_emit {e : Event} (he : e.isWire = true) (s : State) : wire (s.emit e).h = wire s.h ++ [e] := by
  simp [wire, he]

theorem wire_capture (s : State) : wire s.capture.h = wire s.h ++ [.rx (s.nextChoice .rxData)] :=
  wire_append _ _

/-- A sample puts nothing on the wire (R31). -/
theorem wire_sampledState (q : Flag) (s : State) : wire (sampledState q s).h = wire s.h := by
  simp [wire, Event.isWire]

/-- An abort puts nothing on the wire but a STOP, if ENV draws one (R130). -/
theorem wire_abort (c : Cause) (s : State) :
    wire (s.abort c).h = wire s.h ∨ wire (s.abort c).h = wire s.h ++ [.stop] := by
  rw [abort_eq, wire_append]
  split
  · exact .inr rfl
  · exact .inl (List.append_nil _)

theorem rxByte_capture (hi : s.curIdx.toNat < 6) (j : Nat) :
    s.capture.rxByte j = if s.curIdx.toNat = j then s.nextChoice .rxData else s.rxByte j := by
  unfold State.rxByte
  rw [State.capture_rxbuf, Vector.getElem?_setIfInBounds]
  split
  · rfl
  · rfl

/-- A capture adds its byte's events to the received ones'. -/
theorem bytesEvents_capture_succ (hi : s.curIdx.toNat < 6) :
    bytesEvents .xr n (s.capture.byte .xr) (s.curIdx.toNat + 1) =
      bytesEvents .xr n (s.byte .xr) s.curIdx.toNat ++ [ackctl s.curIdx.toNat n, .rx (s.nextChoice .rxData)] := by
  have hold : bytesEvents .xr n (s.capture.byte .xr) s.curIdx.toNat = bytesEvents .xr n (s.byte .xr) s.curIdx.toNat :=
    bytesEvents_congr fun j hj => (rxByte_capture hi j).trans (if_neg hj.ne')
  have hnew : s.capture.byte .xr s.curIdx.toNat = s.nextChoice .rxData := (rxByte_capture hi _).trans (if_pos rfl)
  rw [bytesEvents_succ, hold, byteEvents, hnew]

/-- The byte that a receiving XR captures, with its acknowledge setting, comes next in its events. -/
theorem TransferInv.bytesEvents_capture (T : TransferInv u) (hp : u.phase = .wRxne) :
    bytesEvents .xr u.curN ((sampledState .rxne u).capture.byte .xr) (u.curIdx.toNat + 1) =
      bytesEvents .xr u.curN (u.byte .xr) u.curIdx.toNat ++
        [ackctl u.curIdx.toNat u.curN, .rx ((sampledState .rxne u).nextChoice .rxData)] :=
  bytesEvents_capture_succ (s := sampledState .rxne u) ((T.receiving hp).2.trans_le T.curN_le)

end Sys2Proof.Machine
end

section
/-! SUPPORT. What a step of XACT adds to the wire while its command goes on (40_transactor.md R111 to R122). -/

namespace Sys2Proof.Machine

variable {s u v : State}

/-- The next acknowledge setting moves an XR on to byte j (R122); stated for any state, so that no unification has to
look into the capture. -/
theorem wireSoFar_ack {e : Event} {j : BitVec 3} {c : BitVec 14} (hp : s.phase = .wRxne) (ho : s.curOp = .xr) :
    State.wireSoFar { s.emit e with idx := some j, cnt := c } = wireAt .xr s.curN (s.byte .xr) .wRxne j.toNat :=
  wireSoFar_eq hp ho rfl (byte_xr_congr rfl) rfl

/-- One step of a transfer that goes on adds to H what it adds to the transfer's wire events. -/
theorem XactEffect.wire_running (hb : BlockInv u) (hp : u.phase ≠ .idle) (h : XactEffect u v) (hv : v.phase ≠ .idle) :
    ∃ d, wire v.h = wire u.h ++ d ∧ v.wireSoFar = u.wireSoFar ++ d := by
  have T := hb.transfer hp
  cases h with
  | @stay _ q => exact ⟨[], by simpa using wire_sampledState q u, (List.append_nil _).symm⟩
  | address hp =>
    refine ⟨wireHeader u.curOp, ?_, ?_⟩
    · show wire (((sampledState .busy u).emit .start).emit (.addr (addrByte (decide (u.curOp = .xr))))).h = _
      rw [wire_emit rfl, wire_emit rfl, wire_sampledState, List.append_assoc]
      rfl
    · rw [wireSoFar_eq_wireAt hp rfl]
      exact wireSoFar_eq rfl rfl rfl rfl rfl
  | firstTx hp _ ho =>
    refine ⟨[.tx (u.txByte 0)], (wire_emit rfl _).trans (by rw [wire_sampledState]), ?_⟩
    rw [wireSoFar_eq_wireAt hp ho]
    exact Eq.trans (wireSoFar_eq rfl ho rfl (byte_xw_congr rfl) rfl) rfl
  | firstAck hp _ ho =>
    refine ⟨[ackctl 0 u.curN], (wire_emit isWire_ackctl _).trans (by rw [wire_sampledState]), ?_⟩
    rw [wireSoFar_eq_wireAt hp ho]
    exact Eq.trans (wireSoFar_eq rfl ho rfl (byte_xr_congr rfl) rfl) rfl
  | nextTx hp _ hi =>
    have ho := (T.sending hp).1
    refine ⟨[.tx (u.txByte (u.curIdx.toNat + 1))], (wire_emit rfl _).trans (by rw [wire_sampledState]), ?_⟩
    refine Eq.trans (wireSoFar_eq hp ho rfl (byte_xw_congr rfl) (idx_succ hi T.curN_le)) ?_
    rw [wireSoFar_eq_wireAt hp ho, wireAt, bytesEvents_succ, ← List.append_assoc]
    rfl
  | nextRx hp _ hi =>
    have ho := (T.receiving hp).1
    refine ⟨[.rx ((sampledState .rxne u).nextChoice .rxData), ackctl (u.curIdx.toNat + 1) u.curN], ?_, ?_⟩
    · refine (wire_emit isWire_ackctl _).trans ?_
      rw [wire_capture, wire_sampledState, List.append_assoc, List.singleton_append]
    · have hwp : (sampledState .rxne u).capture.phase = .wRxne := hp
      have hwo : (sampledState .rxne u).capture.curOp = .xr := ho
      have hwn : (sampledState .rxne u).capture.curN = u.curN := rfl
      refine Eq.trans (wireSoFar_ack hwp hwo) ?_
      rw [wireSoFar_eq_wireAt hp ho, idx_succ hi T.curN_le, hwn, wireAt, T.bytesEvents_capture hp, wireAt]
      simp only [List.append_assoc, List.cons_append, List.nil_append]
  | _ => exact absurd rfl hv

end Sys2Proof.Machine
end

section
/-! SUPPORT. What a run of XACT that has ended its command has put on the wire (30_encoding.md R88,
40_transactor.md R132). -/

namespace Sys2Proof.Machine

variable {s t u v : State} {o : XferOp} {k : Nat}

/-- OP, N and TXBUF are the same in both states: XACT's steps write none of them. -/
structure SameTransfer (s t : State) : Prop where
  op : t.op = s.op
  n : t.n = s.n
  txbuf : t.txbuf = s.txbuf

theorem SameTransfer.curOp_eq (h : SameTransfer s t) : t.curOp = s.curOp := by simp only [State.curOp, h.op]

theorem SameTransfer.curN_eq (h : SameTransfer s t) : t.curN = s.curN := by simp only [State.curN, h.n]

theorem SameTransfer.trans (h : SameTransfer s u) (h' : SameTransfer u t) : SameTransfer s t :=
  ⟨h'.op.trans h.op, h'.n.trans h.n, h'.txbuf.trans h.txbuf⟩

theorem XactEffect.sameTransfer (h : XactEffect s t) : SameTransfer s t := by
  cases h <;> constructor <;> simp

/-- A transfer that was in its bus-busy wait in state s still runs in state u. -/
structure Running (s u : State) : Prop where
  inv : BlockInv u
  same : SameTransfer s u
  wire_eq : wire u.h = wire s.h ++ u.wireSoFar

theorem Running.step (h : Running s u) (hp : u.phase ≠ .idle) (he : XactEffect u v) (hv : v.phase ≠ .idle) :
    Running s v := by
  obtain ⟨d, hd, hso⟩ := he.wire_running h.inv hp hv
  refine ⟨he.blockInv h.inv hp, h.same.trans he.sameTransfer, ?_⟩
  rw [hd, hso, h.wire_eq, List.append_assoc]

theorem xactRun_idle (k : Nat) (hp : s.phase = .idle) : xactRun k s = .next s := by
  cases k <;> simp [xactRun, hp]

/-- A run of XACT that ends its command does so by a step from a state that has every property the steps keep while
the command runs. -/
theorem xactRun_ends {P : State → Prop}
    (hstep : ∀ u v, P u → u.phase ≠ .idle → XactEffect u v → v.phase ≠ .idle → P v)
    (hs : P s) (hp : s.phase ≠ .idle) (h : xactRun k s = .next t) (ht : t.phase = .idle) :
    ∃ u, P u ∧ u.phase ≠ .idle ∧ XactEffect u t := by
  induction k generalizing s with
  | zero =>
    cases h
    contradiction
  | succ k ih =>
    rw [xactRun, if_neg hp] at h
    split at h
    case h_1 v hx =>
      have he := xactStep_cases hx
      by_cases hv : v.phase = .idle
      · rw [xactRun_idle k hv] at h
        cases h
        exact ⟨s, hs, hp, he⟩
      · exact ih (hstep s v hs hp he hv) hv h
    case h_2 | h_3 => cases h

/-- What H shows, from state s to state t, of a transfer with this shape that has ended in t (R88). -/
structure WireOutcome (s t : State) (shape : List Event) : Prop where
  success : t.ok = true → wire t.h = wire s.h ++ shape
  failure : t.ok = false → ∃ p, p <+: shape ∧ p ≠ shape ∧
    (wire t.h = wire s.h ++ p ∨ (p ≠ [] ∧ wire t.h = wire s.h ++ p ++ [.stop])) ∧
    (t.cause = .busBusyTimeout → wire t.h = wire s.h)

/-- Only the waits that follow START end in an abort (R130). -/
theorem abort_after_start {p : Phase} {q : Flag} {c : Cause}
    (hm : (p, q, c) ∈ [(Phase.wAddr, Flag.addrAck, Cause.addrTimeout), (.wBtf, .btf, .btfTimeout),
      (.wRxne, .rxne, .rxneTimeout)]) : p ≠ .wBusy ∧ c ≠ .busBusyTimeout := by
  simp only [List.mem_cons, Prod.mk.injEq, List.not_mem_nil, or_false] at hm
  obtain ⟨rfl, -, rfl⟩ | ⟨rfl, -, rfl⟩ | ⟨rfl, -, rfl⟩ := hm <;> decide

/-- The last step of a transfer completes its shape, or leaves the beginning that is on the wire with a STOP at most. -/
theorem XactEffect.wireOutcome (hr : Running s u) (hp : u.phase ≠ .idle) (h : XactEffect u t) (ht : t.phase = .idle) :
    WireOutcome s t (wireShape u.curOp u.curN (t.byte u.curOp)) := by
  have T := hr.inv.transfer hp
  cases h with
  | lastTx hp _ hi =>
    obtain ⟨ho, hlt⟩ := T.sending hp
    have hn : u.curIdx.toNat + 1 = u.curN := by omega
    refine ⟨fun _ => ?_, nofun⟩
    refine (wire_emit rfl _).trans ?_
    rw [wire_sampledState, hr.wire_eq, State.wireSoFar, hp, ho, wireAt, hn, List.append_assoc]
    rfl
  | lastRx hp _ hi =>
    obtain ⟨ho, hlt⟩ := T.receiving hp
    have hn : u.curIdx.toNat + 1 = u.curN := by omega
    have hcap := T.bytesEvents_capture hp
    rw [hn] at hcap
    have hbyte := byte_xr_congr (s := (sampledState .rxne u).capture)
      (t := { (sampledState .rxne u).capture.emit .stop with rxvalid := true }.complete .none true) rfl
    refine ⟨fun _ => ?_, nofun⟩
    refine (wire_emit (e := .stop) rfl (sampledState .rxne u).capture).trans ?_
    rw [wire_capture, wire_sampledState, hr.wire_eq, State.wireSoFar, hp, ho, wireAt, wireShape, hbyte, hcap]
    simp only [List.append_assoc, List.cons_append, List.nil_append]
  | busBusy hp =>
    have hnil : u.wireSoFar = [] := by rw [State.wireSoFar, hp]; rfl
    refine ⟨nofun, fun _ => ⟨[], List.nil_prefix, by simp [wireShape], ?_⟩⟩
    have hw := (wire_sampledState .busy u).trans hr.wire_eq
    rw [hnil] at hw
    exact ⟨.inl hw, fun _ => hw.trans (List.append_nil _)⟩
  | @abort _ q c hm hp' =>
    have hbyte : ((sampledState q u).abort c).byte u.curOp = u.byte u.curOp :=
      byte_congr (by simp) (by simp) _
    have hc : ((sampledState q u).abort c).cause = c := by simp
    obtain ⟨hb, hne⟩ := abort_after_start hm
    rw [hbyte]
    refine ⟨nofun, fun _ => ⟨u.wireSoFar, T.wireSoFar_prefix, wireAt_ne_wireShape _, ?_, ?_⟩⟩
    · rw [← hr.wire_eq, ← wire_sampledState q u]
      exact (wire_abort c _).imp_right fun h => ⟨wireSoFar_ne_nil hp (hp' ▸ hb), h⟩
    · rw [hc]
      exact fun h => absurd h hne
  | stay | nextTx | nextRx => exact absurd (by simpa using ht) hp
  | _ => cases ht

/-- At its bus-busy wait a transfer has put nothing on the wire yet. -/
theorem running_start (hs : s.Inv) (hp : s.phase = .wBusy) : Running s s :=
  ⟨(inv_iff.1 hs).1, ⟨rfl, rfl, rfl⟩, by rw [State.wireSoFar, hp]; exact (List.append_nil _).symm⟩

theorem XactEffect.rxlen_eq (h : XactEffect s t) : t.rxlen = s.rxlen := by
  cases h <;> simp

/-- An XR's last step sets RXVALID exactly when it succeeds. -/
theorem XactEffect.rxvalid_eq_ok (T : TransferInv u) (ho : u.curOp = .xr) (hp : u.phase ≠ .idle) (h : XactEffect u t)
    (ht : t.phase = .idle) : t.rxvalid = t.ok := by
  have hv := (T.reading ho).1
  cases h with
  | lastTx hp => cases ho.symm.trans (T.sending hp).1
  | lastRx => rfl
  | busBusy => exact hv
  | abort => simpa using hv
  | stay | nextTx | nextRx => exact absurd (by simpa using ht) hp
  | _ => cases ht

section Run

variable (hs : s.Inv) (hp : s.phase = .wBusy) (h : xactRun k s = .next t) (ht : t.phase = .idle)

include hs hp h ht

theorem xactRun_last_step : ∃ u, Running s u ∧ u.phase ≠ .idle ∧ XactEffect u t :=
  xactRun_ends (fun _ _ => Running.step) (running_start hs hp) (by simp [hp]) h ht

theorem xactRun_wireOutcome (ho : s.op = some o) : WireOutcome s t (wireShape o s.curN (t.byte o)) := by
  obtain ⟨u, hr, hu, he⟩ := xactRun_last_step hs hp h ht
  have houtcome := he.wireOutcome hr hu ht
  have hcur : s.curOp = o := by simp [State.curOp, ho]
  rwa [hr.same.curOp_eq, hr.same.curN_eq, hcur] at houtcome

theorem xactRun_txbuf : t.txbuf = s.txbuf := by
  obtain ⟨u, hr, -, he⟩ := xactRun_last_step hs hp h ht
  exact (hr.same.trans he.sameTransfer).txbuf

theorem xactRun_received (ho : s.op = some .xr) : t.rxvalid = t.ok ∧ t.rxlen.toNat = s.curN := by
  obtain ⟨u, hr, hu, he⟩ := xactRun_last_step hs hp h ht
  have T := hr.inv.transfer hu
  have huo : u.curOp = .xr := hr.same.curOp_eq.trans (by simp [State.curOp, ho])
  refine ⟨he.rxvalid_eq_ok T huo hu ht, ?_⟩
  rw [he.rxlen_eq, (T.reading huo).2, hr.same.curN_eq]

end Run

end Sys2Proof.Machine
end

section
/-! The obligations of 30_encoding.md: the decoder and the encoder, the pseudo-instructions, the wire address bytes,
the raw fields of a frame, and the wire shapes. -/

namespace Sys2Proof.Machine

/-- Settles O1, row by row; only the four pseudo-instructions are not their own expansion. -/
theorem decodeOfEncode : Obligations.DecodeOfEncode := by
  refine ⟨decodeBits_encode, fun i _ _ _ _ => (decodeBits_encode i).trans ?_⟩
  cases i with
  | sensorReset | sensorInit | sensorMeasure | readFrame => contradiction
  | _ => rfl

/-- Settles O2: a legal word is its fields in a row. -/
theorem encodeOfDecode : Obligations.EncodeOfDecode :=
  ⟨fun _ _ => encode_of_decodeWord, fun _ _ => encode_of_decodeAddr⟩

/-- Settles O3: a word is illegal exactly when it decodes to no command. -/
theorem illegalCommandWords : Obligations.IllegalCommandWords := by
  intro w s hf hp
  refine ⟨cmdWrite_of_illegal hf hp, fun hl => ?_⟩
  obtain ⟨i, hd, hc⟩ := not_illegalCommand_iff.1 hl
  exact ⟨i, hd, hc, cmdWrite_of_legal hf hp hd hc⟩

/-- Settles O5 by computation: each word is a number. -/
theorem specWordsDecode : Obligations.SpecWordsDecode := by
  unfold Obligations.SpecWordsDecode
  decide

/-- Settles O10: a pseudo-instruction issues the transfer its expansion issues. -/
theorem pseudoResult : Obligations.PseudoResult := by
  refine ⟨fun s => ⟨rfl, rfl, rfl, rfl⟩, fun s hf hp hi => ⟨?_, ?_, ?_, ?_⟩⟩
  · exact issueXw_initd 1#3 0xBA#8 0#8 0#8 hf hp hi
  · exact issueXw_initd 3#3 0xE1#8 0x08#8 0x00#8 hf hp hi
  · exact issueXw_initd 3#3 0xAC#8 0x33#8 0x00#8 hf hp hi
  · exact issueXr_initd 6#3 hf hp hi

/-- Settles O19: the address byte of TARGET_ADDR 0x38 is 0x70 for a write and 0x71 for a read. -/
theorem addressByteResult : Obligations.AddressByteResult :=
  fun _ hf => ⟨driveAddress_running false hf, driveAddress_running true hf⟩

/-- Settles O25, from what driving an address byte can do. -/
theorem addressByteFrame : Obligations.AddressByteFrame := by
  intro i s t hc h
  cases i with
  | addrW | addrR =>
    obtain ⟨-, rfl⟩ := driveAddress_cases h
    exact ⟨_, rfl⟩
  | _ => cases hc

/-- Settles O33, from the shape both directions share: no step of an XW writes TXBUF, so its bytes are those of the
start. -/
theorem writeWireShape : Obligations.WriteWireShape := by
  intro s t k hs _ hp ho h ht
  have hout := xactRun_wireOutcome hs hp h ht ho
  rw [byte_xw_congr (xactRun_txbuf hs hp h ht), ← xwShape_eq_wireShape] at hout
  exact ⟨hout.success, hout.failure⟩

/-- Settles O34, from the shape both directions share: after a failure the bytes not received are whatever RXBUF
holds. -/
theorem readWireShape : Obligations.ReadWireShape := by
  intro s t k hs _ hp ho h ht
  have hout := xactRun_wireOutcome hs hp h ht ho
  obtain ⟨hv, hl⟩ := xactRun_received hs hp h ht ho
  rw [← xrShape_eq_wireShape] at hout
  rw [hv]
  refine ⟨fun hok => ⟨hok, hl, hout.success hok⟩, fun hok => ⟨hok, (List.range s.curN).map t.rxByte, ?_⟩⟩
  obtain ⟨p, hfail⟩ := hout.failure hok
  exact ⟨p, by simp, hfail⟩

/-- Settles O36: the first formula for hum_raw shifts the second one's four bits further up and then down again. -/
theorem rawFieldAssembly : Obligations.RawFieldAssembly := by
  intro f
  refine ⟨?_, humRaw_toNat f, tempRaw_toNat f, f.humRaw.isLt, f.tempRaw.isLt⟩
  have hshift (m k : Nat) : m <<< (k + 4) >>> 4 = m <<< k := by rw [Nat.shiftLeft_add, Nat.shiftLeft_shiftRight]
  rw [humRaw_toNat, Nat.shiftRight_or_distrib, Nat.shiftRight_or_distrib, hshift _ 12, hshift _ 4]

end Sys2Proof.Machine
end

section
/-! SUPPORT. Every command is an issue (40_transactor.md R101), and every instruction has a next state while FAULT is
none. -/

namespace Sys2Proof.Machine

variable {s : State} {i : Instr}

/-- Every command makes the issue checks first. -/
theorem exec_eq_issue (hc : i.cls = .command) : ∃ k, ∀ s, exec i s = issue k s := by
  cases i with
  | delay | jf | retFalse | retTrue | retVoid | addrW | addrR => cases hc
  | _ => exact ⟨_, fun _ => rfl⟩

/-- An XW form issues the bytes of its word (R90, R102). -/
theorem exec_eq_issueXw {k : BitVec 3} {buf : Vector (Option Byte) 3} (h : payloadOf i = some (k, buf)) :
    ∃ b0 b1 b2, buf = payload b0 b1 b2 ∧ ∀ s, exec i s = issueXw k b0 b1 b2 s := by
  cases i <;> cases h <;> exact ⟨_, _, _, rfl, fun _ => rfl⟩

/-- An XR form issues a read of its N bytes (R90, R120). -/
theorem exec_eq_issueXr {k : BitVec 3} (h : readLengthOf i = some k) (s : State) : exec i s = issueXr k s := by
  cases i <;> cases h <;> rfl

theorem issueXw_not_initd (k : BitVec 3) (b0 b1 b2 : Byte) (hf : s.fault = none) (hp : s.phase = .idle)
    (hi : s.initd = false) : issueXw k b0 b1 b2 s = .next { s with fault := some .notInit } := by
  simp [issueXw, issue_idle hf hp, hi]

theorem issueXr_not_initd (k : BitVec 3) (hf : s.fault = none) (hp : s.phase = .idle) (hi : s.initd = false) :
    issueXr k s = .next { s with fault := some .notInit } := by
  simp [issueXr, issue_idle hf hp, hi]

theorem cmdWrite_busy (w : Word) (hf : s.fault = none) (hp : s.phase ≠ .idle) :
    cmdWrite w s = .next { s with fault := some .overlap } :=
  issue_busy hf hp

theorem regWrite_cmd (w : Word) (hf : s.fault = none) : regWrite regCmd w s = cmdWrite w s := by
  simp [regWrite, hf]

/-- A listed write to CMD: the step issues the word (R62, R101). -/
theorem step_of_cmdWriteTurn {w : Word} {rest : List Turn} (hf : s.fault = none)
    (ht : s.turns = .write regCmd w :: rest) : step s = thenTurns rest (cmdWrite w s) := by
  rw [step_of_writeTurn hf ht, regWrite_cmd w hf]

theorem exists_issue_next {k : State → Result} (hf : s.fault = none) (hk : ∃ t, k s = .next t) :
    ∃ t, issue k s = .next t := by
  by_cases hp : s.phase = .idle
  · rwa [issue_idle hf hp]
  · exact ⟨_, issue_busy hf hp⟩

theorem exists_issueXw_next (k : BitVec 3) (b0 b1 b2 : Byte) (hf : s.fault = none) :
    ∃ t, issueXw k b0 b1 b2 s = .next t :=
  exists_issue_next hf (by split <;> exact ⟨_, rfl⟩)

theorem exists_issueXr_next (k : BitVec 3) (hf : s.fault = none) : ∃ t, issueXr k s = .next t :=
  exists_issue_next hf (by split <;> exact ⟨_, rfl⟩)

theorem exists_execInit_next (hf : s.fault = none) : ∃ t, execInit s = .next t :=
  exists_issue_next hf (by split <;> exact ⟨_, rfl⟩)

theorem execInit_initd (hf : s.fault = none) (hp : s.phase = .idle) (hi : s.initd = true) :
    execInit s = .next { s with fault := some .reinit } := by
  simp [execInit, issue_idle hf hp, hi]

theorem execInit_not_initd (hf : s.fault = none) (hp : s.phase = .idle) (hi : s.initd = false) :
    execInit s = .next ({ s.emit .busInit with initd := true }.complete .none true) := by
  simp [execInit, issue_idle hf hp, hi]

theorem exists_execDec_next (hf : s.fault = none) : ∃ t, execDec s = .next t := by
  refine exists_issue_next hf ?_
  split
  · exact ⟨_, rfl⟩
  · split <;> exact ⟨_, rfl⟩

theorem exists_execJf_next (j : BitVec 16) (hf : s.fault = none) : ∃ t, execJf j s = .next t := by
  rw [execJf, whileRunning_running hf]
  repeat' split
  all_goals exact ⟨_, rfl⟩

theorem exists_execClr_next (hf : s.fault = none) : ∃ t, execClr s = .next t :=
  exists_issue_next hf ⟨_, rfl⟩

theorem execDelay_running (ms : BitVec 16) (hf : s.fault = none) :
    execDelay ms s = .next (s.emit (.delay ms)).nextWord :=
  whileRunning_running hf

theorem returnWith_running (v : RetVal) (hf : s.fault = none) :
    returnWith v s = .next { s with hret := some v, hmode := .halt } :=
  whileRunning_running hf

/-- While FAULT is none every instruction answers a next state (R205). -/
theorem exists_exec_next (i : Instr) (hf : s.fault = none) : ∃ t, exec i s = .next t := by
  cases i with
  | init => exact exists_execInit_next hf
  | clr => exact exists_execClr_next hf
  | dec => exact exists_execDec_next hf
  | xw1 | xw2 | xw3 | sensorReset | sensorInit | sensorMeasure => exact exists_issueXw_next _ _ _ _ hf
  | xr1 | xr2 | xr3 | xr4 | xr5 | xr6 | readFrame => exact exists_issueXr_next _ hf
  | delay ms => exact ⟨_, execDelay_running ms hf⟩
  | jf j => exact exists_execJf_next j hf
  | retFalse | retTrue | retVoid => exact ⟨_, returnWith_running _ hf⟩
  | addrW | addrR => exact ⟨_, driveAddress_running _ hf⟩

end Sys2Proof.Machine
end

section
/-! SUPPORT. What a command and a host word leave alone of the block: a transfer's bookkeeping, the buffers, ENV's
choices and the model's own fields (40_transactor.md R101 to R103, R120, R134). -/

namespace Sys2Proof.Machine

variable {s t : State} {i : Instr}

/-- The transfer's bookkeeping, both buffers and the frame's flags are the same in both states (R20). -/
structure SameBookkeeping (s t : State) : Prop extends SameTransfer s t where
  idx : t.idx = s.idx
  cnt : t.cnt = s.cnt
  rxbuf : t.rxbuf = s.rxbuf
  rxvalid : t.rxvalid = s.rxvalid
  rxlen : t.rxlen = s.rxlen

/-- The block is the same in both states, but for H (R134). -/
structure SameBlock (s t : State) : Prop extends SameBookkeeping s t where
  phase : t.phase = s.phase
  initd : t.initd = s.initd
  okv : t.okv = s.okv
  ok : t.ok = s.ok
  tempX10 : t.tempX10 = s.tempX10
  humX10 : t.humX10 = s.humX10
  cause : t.cause = s.cause
  envInput : t.envInput = s.envInput
  envCount : t.envCount = s.envCount

/-- What the issue of a transfer leaves alone, whatever its direction (R101). -/
structure IssueFrame (s t : State) : Prop where
  tempX10 : t.tempX10 = s.tempX10
  humX10 : t.humX10 = s.humX10
  cause : t.cause = s.cause
  initd : t.initd = s.initd
  rxbuf : t.rxbuf = s.rxbuf
  h : t.h = s.h

theorem issueXw_frame {k : BitVec 3} {b0 b1 b2 : Byte} (h : issueXw k b0 b1 b2 s = .next t) :
    IssueFrame s t ∧ t.rxvalid = s.rxvalid ∧ t.rxlen = s.rxlen ∧ (t.fault ≠ none → t.txbuf = s.txbuf) := by
  obtain ⟨hf, ⟨-, rfl⟩ | ⟨-, -, rfl⟩ | ⟨-, -, rfl⟩⟩ := issueXw_cases h
  · exact ⟨⟨rfl, rfl, rfl, rfl, rfl, rfl⟩, rfl, rfl, fun _ => rfl⟩
  · exact ⟨⟨rfl, rfl, rfl, rfl, rfl, rfl⟩, rfl, rfl, fun _ => rfl⟩
  · exact ⟨⟨rfl, rfl, rfl, rfl, rfl, rfl⟩, rfl, rfl, fun hne => absurd hf hne⟩

theorem issueXr_frame {k : BitVec 3} (h : issueXr k s = .next t) : IssueFrame s t ∧ t.txbuf = s.txbuf := by
  obtain ⟨-, ⟨-, rfl⟩ | ⟨-, -, rfl⟩ | ⟨-, -, rfl⟩⟩ := issueXr_cases h <;>
    exact ⟨⟨rfl, rfl, rfl, rfl, rfl, rfl⟩, rfl⟩

/-- The XW forms are the instructions that carry a payload (R74, R90). -/
theorem payloadOf_of_xwForm (hi : i ∈ [Instr.sensorReset, .sensorInit, .sensorMeasure] ∨
    (∃ a, i = .xw1 a) ∨ (∃ a b, i = .xw2 a b) ∨ (∃ a b c, i = .xw3 a b c)) :
    ∃ k buf, payloadOf i = some (k, buf) := by
  simp only [List.mem_cons, List.not_mem_nil, or_false] at hi
  obtain (rfl | rfl | rfl) | ⟨a, rfl⟩ | ⟨a, b, rfl⟩ | ⟨a, b, c, rfl⟩ := hi <;> exact ⟨_, _, rfl⟩

/-- The XR forms are the instructions that carry a read's length (R75, R90). -/
theorem readLengthOf_of_xrForm (hi : i ∈ [Instr.xr1, .xr2, .xr3, .xr4, .xr5, .xr6, .readFrame]) :
    ∃ k, readLengthOf i = some k := by
  simp only [List.mem_cons, List.not_mem_nil, or_false] at hi
  obtain rfl | rfl | rfl | rfl | rfl | rfl | rfl := hi <;> exact ⟨_, rfl⟩

theorem exec_xwForm_frame (hi : i ∈ [Instr.sensorReset, .sensorInit, .sensorMeasure] ∨
    (∃ a, i = .xw1 a) ∨ (∃ a b, i = .xw2 a b) ∨ (∃ a b c, i = .xw3 a b c)) (h : exec i s = .next t) :
    IssueFrame s t ∧ t.rxvalid = s.rxvalid ∧ t.rxlen = s.rxlen ∧ (t.fault ≠ none → t.txbuf = s.txbuf) := by
  obtain ⟨k, buf, hk⟩ := payloadOf_of_xwForm hi
  obtain ⟨b0, b1, b2, -, he⟩ := exec_eq_issueXw hk
  exact issueXw_frame (he s ▸ h)

theorem exec_xrForm_frame (hi : i ∈ [Instr.xr1, .xr2, .xr3, .xr4, .xr5, .xr6, .readFrame])
    (h : exec i s = .next t) : IssueFrame s t ∧ t.txbuf = s.txbuf := by
  obtain ⟨k, hk⟩ := readLengthOf_of_xrForm hi
  exact issueXr_frame (exec_eq_issueXr hk s ▸ h)

/-- No instruction by itself consumes an ENV choice, a turn or the value last read (R162). -/
theorem Effect.keeps_choices (h : Effect s i t) :
    t.turns = s.turns ∧ t.readData = s.readData ∧ t.envInput = s.envInput ∧ t.envCount = s.envCount := by
  cases h <;> exact ⟨rfl, rfl, rfl, rfl⟩

/-- Of the commands only INIT writes INITD, and appends to H (R103). -/
theorem Effect.history_of_command (hc : i.cls = .command) (h : Effect s i t) :
    (t.h = s.h ∧ t.initd = s.initd) ∨ (i = .init ∧ t.h = s.h ++ [.busInit]) := by
  cases h with
  | init => exact .inr ⟨rfl, rfl⟩
  | delay | jump | fall => cases hc
  | ret hi => cases hc.symm.trans (cls_of_ret hi).2
  | addr hi => cases hc.symm.trans (cls_of_addr hi)
  | _ => exact .inl ⟨rfl, rfl⟩

/-- INIT, DEC and CLR end in the PHASE they were issued in and touch no transfer (R103, R141, R150). -/
theorem Effect.sameBookkeeping_of_atomic (hi : i ∈ [Instr.init, .dec, .clr]) (h : Effect s i t) :
    SameBookkeeping s t ∧ t.phase = s.phase := by
  simp only [List.mem_cons, List.not_mem_nil, or_false] at hi
  cases h with
  | init hp | clr hp | noFrame hp | sensorBusy hp | decode hp =>
    exact ⟨⟨⟨rfl, rfl, rfl⟩, rfl, rfl, rfl, rfl, rfl⟩, hp.symm⟩
  | write _ _ hk | read _ _ hk => obtain rfl | rfl | rfl := hi <;> cases hk
  | delay | jump | fall => simp at hi
  | ret hm | addr hm => obtain rfl | rfl | rfl := hi <;> simp at hm

/-- The HOST's own fields and H are no part of what SameBlock compares (R38). -/
theorem sameBlock_of_hostFields (s : State) (es : List Event) (k : BitVec 16) (b : Bool) (m : HMode)
    (r : Option RetVal) : SameBlock s { s with h := es, hpc := k, hpcPast := b, hmode := m, hret := r } :=
  ⟨⟨⟨rfl, rfl, rfl⟩, rfl, rfl, rfl, rfl, rfl⟩, rfl, rfl, rfl, rfl, rfl, rfl, rfl, rfl, rfl⟩

/-- The host words change no block state but what DELAY appends to H (R163 to R165). -/
theorem Effect.sameBlock_of_hostWord (hc : i.cls = .hostWord) (h : Effect s i t) :
    SameBlock s t ∧ (t.h = s.h ∨ ∃ ms, i = .delay ms ∧ t.h = s.h ++ [.delay ms]) := by
  cases h with
  | delay => exact ⟨sameBlock_of_hostFields .., .inr ⟨_, rfl, rfl⟩⟩
  | jump | fall | ret => exact ⟨sameBlock_of_hostFields .., .inl rfl⟩
  | addr hi => cases hc.symm.trans (cls_of_addr hi)
  | write _ _ hk => cases hc.symm.trans (cls_of_payloadOf hk)
  | read _ _ hk => cases hc.symm.trans (cls_of_readLengthOf hk)
  | _ => cases hc

/-- While a transaction runs, a step of the HOST's sequence raises a fault or is a host word's (R101, R134). -/
theorem seqStep_busy (hp : s.phase ≠ .idle) (h : seqStep s = .next t) :
    t.fault ≠ none ∨ ∃ i, i.cls = .hostWord ∧ Effect s i t := by
  obtain ⟨-, -, rfl⟩ | ⟨-, w, -, h⟩ | ⟨-, hidle, -⟩ := seqStep_cases h
  · exact .inl nofun
  · obtain ⟨-, h⟩ | ⟨hk, i, hd, h⟩ | ⟨-, rfl⟩ := hostWord_cases h
    · obtain ⟨u, hu, hw⟩ := thenWait_cases h
      obtain ⟨hf, -⟩ := cmdWrite_cases hu
      cases (cmdWrite_busy w hf hp).symm.trans hu
      obtain ⟨hn, -⟩ | ⟨hn, rfl⟩ := hw
      · cases hn
      · exact .inl hn
    · obtain ⟨-, ⟨c, rfl⟩ | he⟩ := exec_cases h
      · exact .inl nofun
      · exact .inr ⟨i, cls_of_hostWord hd hk, he⟩
    · exact .inl nofun
  · contradiction

/-- While a transaction runs, a register write raises a fault, whatever the register and the word (R26, R101). -/
theorem regWrite_busy {r : BitVec 8} {w : Word} (hp : s.phase ≠ .idle) (h : regWrite r w s = .next t) :
    t.fault ≠ none := by
  obtain ⟨hf, ⟨-, h⟩ | ⟨-, rfl⟩⟩ := regWrite_cases h
  · cases (cmdWrite_busy w hf hp).symm.trans h
    exact nofun
  · exact nofun

end Sys2Proof.Machine
end

section
/-! SUPPORT. One step of XACT, wait by wait (40_transactor.md R110 to R122, R130): the sample, and then what a met wait
does, the timeout, or the wait goes on. -/

namespace Sys2Proof.Machine

variable {s : State} {p : Phase} {f : Flag} {v : Bool} {c : Cause} {met timeout : State → Result}

theorem xactStep_of_wBusy (hp : s.phase = .wBusy) : xactStep s = pollStep .busy false busyMet busyTimeout s := by
  simp only [xactStep, hp]

/-- The wait of phase p, whose flag is f: an unmet one is aborted with cause c, and met says what a met one does. -/
inductive WaitAfterStart : Phase → Flag → Cause → (State → Result) → Prop
  | addr : WaitAfterStart .wAddr .addrAck .addrTimeout addrMet
  | btf : WaitAfterStart .wBtf .btf .btfTimeout btfMet
  | rxne : WaitAfterStart .wRxne .rxne .rxneTimeout rxneMet

theorem WaitAfterStart.xactStep_eq (hw : WaitAfterStart p f c met) (hp : s.phase = p) :
    xactStep s = pollStep f true met (fun s => .next (s.abort c)) s := by
  cases hw <;> simp only [xactStep, hp]

theorem exists_waitAfterStart (hm : (p, f, c) ∈ [(Phase.wAddr, Flag.addrAck, Cause.addrTimeout),
    (.wBtf, .btf, .btfTimeout), (.wRxne, .rxne, .rxneTimeout)]) : ∃ met, WaitAfterStart p f c met := by
  simp only [List.mem_cons, Prod.mk.injEq, List.not_mem_nil, or_false] at hm
  obtain ⟨rfl, rfl, rfl⟩ | ⟨rfl, rfl, rfl⟩ | ⟨rfl, rfl, rfl⟩ := hm
  · exact ⟨_, .addr⟩
  · exact ⟨_, .btf⟩
  · exact ⟨_, .rxne⟩

theorem addrMet_xw (ho : s.curOp = .xw) : addrMet s =
    .next { s.emit (.tx (s.txByte 0)) with idx := some 0#3, phase := .wBtf, cnt := 0#14 } := by
  simp only [addrMet, ho]

theorem addrMet_xr (ho : s.curOp = .xr) : addrMet s =
    .next { s.emit (ackctl 0 s.curN) with idx := some 0#3, phase := .wRxne, cnt := 0#14 } := by
  simp only [addrMet, ho]

theorem btfMet_next (hi : s.curIdx.toNat + 1 < s.curN) : btfMet s =
    .next { s.emit (.tx (s.txByte (s.curIdx.toNat + 1))) with idx := some (s.curIdx + 1#3), cnt := 0#14 } :=
  if_pos hi

theorem btfMet_last (hi : ¬ s.curIdx.toNat + 1 < s.curN) : btfMet s = .next ((s.emit .stop).complete .none true) :=
  if_neg hi

theorem rxneMet_next (hi : s.curIdx.toNat + 1 < s.curN) : rxneMet s =
    .next { s.capture.emit (ackctl (s.curIdx.toNat + 1) s.curN) with idx := some (s.curIdx + 1#3), cnt := 0#14 } :=
  if_pos hi

theorem rxneMet_last (hi : ¬ s.curIdx.toNat + 1 < s.curN) : rxneMet s =
    .next ({ s.capture.emit .stop with rxvalid := true }.complete .none true) :=
  if_neg hi

theorem ackctl_succ (k n : Nat) : ackctl (k + 1) n = if k + 2 = n then .nack else .ack := rfl

theorem ackctl_zero (n : Nat) : ackctl 0 n = if n = 1 then .nack else .ack := by
  simp [ackctl, eq_comm]

theorem busyMet_xw (ho : s.curOp = .xw) : busyMet s = exec .addrW (s.emit .start) := by
  simp only [busyMet, ho, exec]

theorem busyMet_xr (ho : s.curOp = .xr) : busyMet s = exec .addrR (s.emit .start) := by
  simp only [busyMet, ho, exec]

/-- The address byte of a transfer, as R80 writes it. -/
theorem addrByte_eq (o : XferOp) :
    addrByte (decide (o = .xr)) = (0x38#8 <<< 1) ||| (if o = .xr then 1#8 else 0#8) := by
  cases o <;> rfl

theorem driveAddress_start (rw : Bool) (hf : s.fault = none) : driveAddress rw (s.emit .start) =
    .next { s with h := s.h ++ [.start, .addr (addrByte rw)], phase := .wAddr, cnt := 0#14 } := by
  rw [driveAddress_running (s := s.emit .start) rw hf]
  simp [State.emit]

/-- A met bus-busy wait drives START and the address byte (R111). -/
theorem busyMet_running (hf : s.fault = none) : busyMet s =
    .next { s with
      h := s.h ++ [.start, .addr (addrByte (decide (s.curOp = .xr)))], phase := .wAddr, cnt := 0#14 } := by
  cases ho : s.curOp with
  | xw => exact (busyMet_xw ho).trans (driveAddress_start false hf)
  | xr => exact (busyMet_xr ho).trans (driveAddress_start true hf)

/-- The state after a sample of flag f that XACT took in its turn (R110, R62). -/
abbrev polledState (f : Flag) (s : State) : State := { sampledState f s with turns := s.turns.tail }

/-- A capture writes RXBUF and H and takes one choice of ENV (R122). -/
theorem capture_eq (s : State) : s.capture =
    { s with
      rxbuf := s.rxbuf.setIfInBounds s.curIdx.toNat (some (s.nextChoice .rxData))
      h := s.h ++ [.rx (s.nextChoice .rxData)], envInput := s.envInput.tail, envCount := s.envCount + 1 } := rfl

section Step

variable (hf : s.fault = none) (ht : s.XactTurn)

include hf ht

/-- XACT's turn: no step of XACT faults, so the turn is taken off the list (R62, R204). -/
theorem step_of_xactStep {u : State} (h : xactStep s = .next u) : step s = .next { u with turns := s.turns.tail } := by
  rw [step_of_xactTurn hf ht, h, thenTurns_next _ ((xactStep_cases h).fault_eq.trans hf)]

theorem step_of_met {u : State} (hx : xactStep s = pollStep f v met timeout s) (hv : s.sampled f = v)
    (hu : met (sampledState f s) = .next u) : step s = .next { u with turns := s.turns.tail } :=
  step_of_xactStep hf ht (hx.trans ((pollStep_met hv).trans hu))

theorem step_of_timeout {u : State} (hx : xactStep s = pollStep f v met timeout s) (hv : s.sampled f ≠ v)
    (hc : s.cnt + 1#14 = s.pollLimit) (hu : timeout (sampledState f s) = .next u) :
    step s = .next { u with turns := s.turns.tail } :=
  step_of_xactStep hf ht (hx.trans ((pollStep_timeout hv hc).trans hu))

theorem step_of_stay (hx : xactStep s = pollStep f v met timeout s) (hv : s.sampled f ≠ v)
    (hc : s.cnt + 1#14 ≠ s.pollLimit) : step s = .next (polledState f s) :=
  step_of_xactStep hf ht (hx.trans (pollStep_stay hv hc))

/-- The POLL_LIMIT-th unmet sample of a wait that follows START aborts (R110, R130). -/
theorem WaitAfterStart.step_of_abort (hw : WaitAfterStart p f c met) (hp : s.phase = p) (hv : s.sampled f = false)
    (hc : s.cnt + 1#14 = s.pollLimit) : step s =
      .next { polledState f s with
        h := (polledState f s).h ++ (if (polledState f s).nextBit .draw then [.stop] else [])
        envInput := (polledState f s).envInput.tail, envCount := (polledState f s).envCount + 1
        cause := c, phase := .idle, okv := true, ok := false } := by
  rw [step_of_timeout hf ht (hw.xactStep_eq hp) (by simp [hv]) hc rfl, abort_eq]
  rfl

theorem WaitAfterStart.step_of_unmet (hw : WaitAfterStart p f c met) (hp : s.phase = p) (hv : s.sampled f = false)
    (hc : s.cnt + 1#14 ≠ s.pollLimit) : step s = .next (polledState f s) :=
  step_of_stay hf ht (hw.xactStep_eq hp) (by simp [hv]) hc

end Step

end Sys2Proof.Machine
end

section
/-! SUPPORT. A running XACT always has its step, and each step ends the command or lowers its budget
(40_transactor.md R131, 60_exceptions.md R204). -/

namespace Sys2Proof.Machine

variable {s t : State} {p : Phase} {f : Flag} {v : Bool} {c : Cause} {met timeout : State → Result}

theorem exists_pollStep_next (hm : ∃ t, met (sampledState f s) = .next t)
    (ht : ∃ t, timeout (sampledState f s) = .next t) : ∃ t, pollStep f v met timeout s = .next t := by
  by_cases hv : s.sampled f = v
  · rwa [pollStep_met hv]
  · by_cases hc : s.cnt + 1#14 = s.pollLimit
    · rwa [pollStep_timeout hv hc]
    · exact ⟨_, pollStep_stay hv hc⟩

theorem WaitAfterStart.exists_met_next (hw : WaitAfterStart p f c met) (s : State) : ∃ t, met s = .next t := by
  cases hw with
  | addr => unfold addrMet; split <;> exact ⟨_, rfl⟩
  | btf => unfold btfMet; split <;> exact ⟨_, rfl⟩
  | rxne => unfold rxneMet afterCapture; split <;> exact ⟨_, rfl⟩

theorem WaitAfterStart.exists_xactStep_next (hw : WaitAfterStart p f c met) (hp : s.phase = p) :
    ∃ t, xactStep s = .next t := by
  rw [hw.xactStep_eq hp]
  exact exists_pollStep_next (hw.exists_met_next _) ⟨_, rfl⟩

/-- XACT has its step while a command runs (R204). -/
theorem exists_xactStep_next (hf : s.fault = none) (hp : s.phase ≠ .idle) : ∃ t, xactStep s = .next t := by
  cases hq : s.phase with
  | idle => contradiction
  | wBusy =>
    rw [xactStep_of_wBusy hq]
    exact exists_pollStep_next ⟨_, busyMet_running (s := sampledState .busy s) hf⟩ ⟨_, rfl⟩
  | wAddr => exact WaitAfterStart.addr.exists_xactStep_next hq
  | wBtf => exact WaitAfterStart.btf.exists_xactStep_next hq
  | wRxne => exact WaitAfterStart.rxne.exists_xactStep_next hq

theorem budget_of_running (hp : s.phase ≠ .idle) :
    s.budget = s.waitsLeft * s.pollLimit.toNat + (s.pollLimit.toNat - s.cnt.toNat) := by
  unfold State.budget
  split
  · contradiction
  · rfl

/-- One sample less is left of the same wait. -/
theorem budget_sampledState_lt (f : Flag) (hp : s.phase ≠ .idle) (hc : s.cnt.toNat < s.pollLimit.toNat) :
    (sampledState f s).budget < s.budget := by
  have hw : (sampledState f s).waitsLeft = s.waitsLeft := rfl
  have hn : (sampledState f s).cnt.toNat = s.cnt.toNat + 1 := cnt_succ hc
  have hl : (sampledState f s).pollLimit = s.pollLimit := rfl
  rw [budget_of_running hp, budget_of_running (s := sampledState f s) hp, hw, hn, hl]
  omega

/-- A new wait's POLL_LIMIT samples are counted in the waits that were left before it. -/
theorem budget_lt_of_next_wait (hp : s.phase ≠ .idle) (hp' : t.phase ≠ .idle) (hl : t.pollLimit = s.pollLimit)
    (hw : t.waitsLeft + 1 = s.waitsLeft) (hc : s.cnt.toNat < s.pollLimit.toNat) : t.budget < s.budget := by
  rw [budget_of_running hp, budget_of_running hp', hl, ← hw, Nat.succ_mul]
  omega

theorem waitsLeft_wBusy (hp : s.phase = .wBusy) : s.waitsLeft = s.curN + 1 := by
  simp only [State.waitsLeft, hp]

theorem waitsLeft_wAddr (hp : s.phase = .wAddr) : s.waitsLeft = s.curN := by
  simp only [State.waitsLeft, hp]

theorem waitsLeft_bytes (hp : s.phase = .wBtf ∨ s.phase = .wRxne) : s.waitsLeft = s.curN - 1 - s.curIdx.toNat := by
  obtain hp | hp := hp <;> simp only [State.waitsLeft, hp]

/-- The wait for the next byte of a transfer. -/
theorem budget_lt_of_next_byte (T : TransferInv s) (hq : s.phase = .wBtf ∨ s.phase = .wRxne)
    (hi : s.curIdx.toNat + 1 < s.curN) (hp : t.phase = s.phase) (hl : t.pollLimit = s.pollLimit) (hn : t.n = s.n)
    (hx : t.idx = some (s.curIdx + 1#3)) : t.budget < s.budget := by
  have hp0 : s.phase ≠ .idle := by obtain hq | hq := hq <;> simp [hq]
  have hcn : t.curN = s.curN := by simp only [State.curN, hn]
  have hci : t.curIdx.toNat = s.curIdx.toNat + 1 := by
    rw [State.curIdx, hx]
    exact idx_succ hi T.curN_le
  refine budget_lt_of_next_wait hp0 (hp ▸ hp0) hl ?_ T.samples
  rw [waitsLeft_bytes hq, waitsLeft_bytes (hp ▸ hq), hcn, hci]
  omega

/-- A step of XACT ends the command with a result or lowers the budget (R131). -/
theorem XactEffect.progress (T : TransferInv s) (hp : s.phase ≠ .idle) (h : XactEffect s t) :
    (t.phase = .idle ∧ t.okv = true) ∨ (t.phase ≠ .idle ∧ t.budget < s.budget) := by
  have hc := T.samples
  have hn := T.count.1
  cases h with
  | @stay _ f => exact .inr ⟨hp, budget_sampledState_lt f hp hc⟩
  | address hq =>
    refine .inr ⟨nofun, budget_lt_of_next_wait hp nofun rfl ?_ hc⟩
    rw [waitsLeft_wBusy hq, waitsLeft_wAddr rfl]
    rfl
  | firstTx hq =>
    refine .inr ⟨nofun, budget_lt_of_next_wait hp nofun rfl ?_ hc⟩
    rw [waitsLeft_wAddr hq, waitsLeft_bytes (.inl rfl)]
    exact Nat.sub_add_cancel hn
  | firstAck hq =>
    refine .inr ⟨nofun, budget_lt_of_next_wait hp nofun rfl ?_ hc⟩
    rw [waitsLeft_wAddr hq, waitsLeft_bytes (.inr rfl)]
    exact Nat.sub_add_cancel hn
  | nextTx hq _ hi =>
    exact .inr ⟨hp, budget_lt_of_next_byte T (.inl hq) hi rfl rfl rfl rfl⟩
  | nextRx hq _ hi =>
    exact .inr ⟨by simpa using hp, budget_lt_of_next_byte T (.inr hq) hi (by simp) (by simp) (by simp) rfl⟩
  | busBusy | lastTx | lastRx => exact .inl ⟨rfl, rfl⟩
  | abort => exact .inl ⟨by simp, by simp⟩

/-- XACT alone ends a running command within its budget (R131). -/
theorem xactRun_completes {k : Nat} (hb : BlockInv s) (hf : s.fault = none) (hp : s.phase ≠ .idle)
    (hk : s.budget ≤ k) : ∃ t, xactRun k s = .next t ∧ t.phase = .idle ∧ t.okv = true := by
  induction k generalizing s with
  | zero =>
    have hc := (hb.transfer hp).samples
    rw [budget_of_running hp] at hk
    omega
  | succ k ih =>
    obtain ⟨u, hu⟩ := exists_xactStep_next hf hp
    have he := xactStep_cases hu
    rw [xactRun, if_neg hp, hu]
    obtain ⟨hq, hv⟩ | ⟨hq, hlt⟩ := he.progress (hb.transfer hp) hp
    · exact ⟨u, xactRun_idle k hq, hq, hv⟩
    · exact ih (he.blockInv hb hp) (he.fault_eq.trans hf) hq (by omega)

end Sys2Proof.Machine
end

section
/-! SUPPORT. A written byte of a buffer is the byte the steps take (10_state.md R39). -/

namespace Sys2Proof.Machine

variable {s : State} {j k : Nat}

theorem txByte_of_written (h : written s.txbuf.toList k) (hj : j < k) : s.txbuf[j]? = some (some (s.txByte j)) := by
  obtain ⟨b, hb⟩ := written_iff.1 h j hj
  rw [Vector.getElem?_toList] at hb
  simp [State.txByte, hb]

theorem rxByte_of_written (h : written s.rxbuf.toList k) (hj : j < k) : s.rxbuf[j]? = some (some (s.rxByte j)) := by
  obtain ⟨b, hb⟩ := written_iff.1 h j hj
  rw [Vector.getElem?_toList] at hb
  simp [State.rxByte, hb]

theorem rxFrame_getElem (s : State) (hj : j < 6) : s.rxFrame[j] = s.rxByte j := by
  interval_cases j <;> rfl

/-- OP, N and IDX of a running transfer hold the values the steps take. -/
theorem Bookkeeping.values (B : Bookkeeping s) :
    s.op = some s.curOp ∧ (∃ n, s.n = some n ∧ n.toNat = s.curN) ∧ s.idx = some s.curIdx := by
  obtain ⟨o, ho⟩ := Option.isSome_iff_exists.1 B.op
  obtain ⟨n, hn⟩ := Option.isSome_iff_exists.1 B.n
  obtain ⟨i, hi⟩ := Option.isSome_iff_exists.1 B.idx
  simp [State.curOp, State.curN, State.curIdx, ho, hn, hi]

end Sys2Proof.Machine
end

section
/-! The obligations of 40_transactor.md: issuing a command, XACT's steps and their bound, and that no HOST step cancels
a transaction. -/

namespace Sys2Proof.Machine

/-- Settles O20: a command makes the issue checks, and OVERLAP is the first of them. -/
theorem overlapFirst : Obligations.OverlapFirst := by
  intro s hf hp
  refine ⟨fun i hc => ?_, fun w => cmdWrite_busy w hf hp⟩
  obtain ⟨k, hk⟩ := exec_eq_issue hc
  rw [hk, issue_busy hf hp]

/-- Settles O21, from what the effect of a command leaves alone; a fault leaves everything else. -/
theorem commandFrame : Obligations.CommandFrame := by
  intro i s t hc h
  obtain ⟨-, ⟨c, rfl⟩ | he⟩ := exec_cases h
  · exact ⟨rfl, rfl, rfl, rfl, rfl, rfl, rfl, rfl, rfl, rfl, rfl, fun _ => ⟨rfl, rfl⟩, fun _ => .inl rfl⟩
  · obtain ⟨hpc, hpast, hmode, hret, hprog⟩ := he.sameHost_of_command hc
    obtain ⟨hturns, hread, hin, hcount⟩ := he.keeps_choices
    have hparams := he.sameParams
    have hhist := he.history_of_command hc
    refine ⟨hpc, hpast, hmode, hret, hprog, hturns, hread, hin, hcount, hparams.pollLimit, hparams.numerics, ?_, ?_⟩
    · exact fun hne => hhist.resolve_right fun h => hne h.1
    · exact fun _ => hhist.imp And.left And.right

/-- Settles O22, from what the issue of either direction leaves alone. -/
theorem transferFrame : Obligations.TransferFrame := by
  refine ⟨fun i s t hi h => ?_, fun i s t hi h => (exec_xrForm_frame hi h).2,
    fun i s t hi h => (exec_xwForm_frame hi h).2⟩
  have hform : i ∈ [Instr.xr1, .xr2, .xr3, .xr4, .xr5, .xr6, .readFrame] ∨
      i ∈ [Instr.sensorReset, .sensorInit, .sensorMeasure] ∨
      (∃ a, i = .xw1 a) ∨ (∃ a b, i = .xw2 a b) ∨ (∃ a b c, i = .xw3 a b c) := by
    rw [← or_assoc, ← List.mem_append]
    exact hi
  have hframe : IssueFrame s t :=
    hform.elim (fun hi => (exec_xrForm_frame hi h).1) (fun hi => (exec_xwForm_frame hi h).1)
  exact ⟨hframe.tempX10, hframe.humX10, hframe.cause, hframe.initd, hframe.rxbuf, hframe.h⟩

/-- Settles O23: none of the three writes what a transfer uses, and each ends in the PHASE it was issued in. -/
theorem atomicCommandFrame : Obligations.AtomicCommandFrame := by
  intro i s t hi h
  have hc : i.cls = .command := (by decide : ∀ i ∈ [Instr.init, .dec, .clr], i.cls = .command) i hi
  obtain ⟨-, ⟨c, rfl⟩ | he⟩ := exec_cases h
  · exact ⟨rfl, rfl, rfl, rfl, rfl, rfl, rfl, rfl, rfl, fun _ => ⟨rfl, rfl⟩, fun _ => ⟨rfl, rfl⟩⟩
  · obtain ⟨hb, hp⟩ := he.sameBookkeeping_of_atomic hi
    refine ⟨hb.op, hb.n, hb.idx, hb.cnt, hb.txbuf, hb.rxbuf, hb.rxvalid, hb.rxlen, hp, ?_, ?_⟩
    · rintro rfl
      exact he.handle_cases.resolve_right (by simp)
    · exact fun hne => (he.history_of_command hc).resolve_right fun hinit => hne hinit.1

/-- Settles O54: a HOST step is a host word's, a register read or a fault. -/
theorem noCancellation : Obligations.NoCancellation := by
  rintro s t hp (h | ⟨r, h⟩ | ⟨r, w, h⟩)
  · obtain hf | ⟨i, hc, he⟩ := seqStep_busy hp h
    · exact .inl hf
    · obtain ⟨hb, hh⟩ := he.sameBlock_of_hostWord hc
      exact .inr ⟨hb.phase, hb.op, hb.n, hb.idx, hb.cnt, hb.txbuf, hb.rxbuf, hb.rxlen, hb.rxvalid, hb.initd, hb.okv,
        hb.ok, hb.tempX10, hb.humX10, hb.cause, hb.envInput, hb.envCount,
        hh.imp_right fun ⟨ms, _, hms⟩ => ⟨ms, hms⟩⟩
  · obtain ⟨-, ⟨v, -, rfl⟩ | ⟨-, rfl⟩⟩ := regRead_cases h
    · exact .inr ⟨rfl, rfl, rfl, rfl, rfl, rfl, rfl, rfl, rfl, rfl, rfl, rfl, rfl, rfl, rfl, rfl, rfl, .inl rfl⟩
    · exact .inl nofun
  · exact .inl (regWrite_busy hp h)

/-- Settles O6: INIT's one condition of its own is INITD. -/
theorem initResult : Obligations.InitResult :=
  fun _ hf hp => ⟨execInit_not_initd hf hp, execInit_initd hf hp⟩

/-- Settles O8: each form issues its word's three bytes. -/
theorem writeIssueResult : Obligations.WriteIssueResult := by
  intro s a b c hf hp
  refine ⟨fun hi => ⟨?_, ?_, ?_⟩, fun hi => ⟨?_, ?_, ?_⟩⟩
  · exact issueXw_initd 1#3 a 0#8 0#8 hf hp hi
  · exact issueXw_initd 2#3 a b 0#8 hf hp hi
  · exact issueXw_initd 3#3 a b c hf hp hi
  · exact issueXw_not_initd 1#3 a 0#8 0#8 hf hp hi
  · exact issueXw_not_initd 2#3 a b 0#8 hf hp hi
  · exact issueXw_not_initd 3#3 a b c hf hp hi

/-- Settles O9: each form issues a read of its N bytes. -/
theorem readIssueResult : Obligations.ReadIssueResult := by
  intro s i k hf hp hm
  have hk : readLengthOf i = some k := by
    simp only [List.mem_cons, Prod.mk.injEq, List.not_mem_nil, or_false] at hm
    obtain ⟨rfl, rfl⟩ | ⟨rfl, rfl⟩ | ⟨rfl, rfl⟩ | ⟨rfl, rfl⟩ | ⟨rfl, rfl⟩ | ⟨rfl, rfl⟩ := hm <;> rfl
  rw [exec_eq_issueXr hk]
  exact ⟨issueXr_initd k hf hp, issueXr_not_initd k hf hp⟩

/-- Settles O44: a write to CMD is a command's issue, and every legal word is a command. -/
theorem commandRegisterWrite : Obligations.CommandRegisterWrite := by
  intro s w rest hf ht
  have hstep := step_of_cmdWriteTurn hf ht
  refine ⟨fun hp => ?_, fun hp hl => ?_, fun hp hl => ?_⟩
  · rw [hstep, cmdWrite_busy w hf hp, thenTurns_fault rest (by simp)]
  · rw [hstep, cmdWrite_of_illegal hf hp hl, thenTurns_fault rest (by simp)]
  · obtain ⟨i, hd, hc⟩ := not_illegalCommand_iff.1 hl
    obtain ⟨t, he⟩ := exists_exec_next i hf
    rw [hstep, cmdWrite_of_legal hf hp hd hc, he]
    exact ⟨i, t, hd, hc, he, thenTurns_next rest, thenTurns_fault rest⟩

/-- Settles O26: a met wait sends START and the address byte, and the timeout sends nothing. -/
theorem busyWaitStep : Obligations.BusyWaitStep := by
  intro s hf ht hp
  have hx := xactStep_of_wBusy hp
  refine ⟨fun hv => ?_, fun hv hc => ?_, fun hv hc => ?_⟩
  · rw [step_of_met hf ht hx hv (busyMet_running hf), ← addrByte_eq]
    rfl
  · exact step_of_timeout hf ht hx (by simp [hv]) hc rfl
  · exact step_of_stay hf ht hx (by simp [hv]) hc

/-- Settles O27: a met wait sends the first byte of an XW or the first acknowledge setting of an XR. -/
theorem addressWaitStep : Obligations.AddressWaitStep := by
  intro s hf ht hp
  have hw := WaitAfterStart.addr
  have hx := hw.xactStep_eq hp
  refine ⟨fun hv ho => ?_, fun hv ho => ?_, hw.step_of_abort hf ht hp, hw.step_of_unmet hf ht hp⟩
  · rw [step_of_met hf ht hx hv (addrMet_xw ho)]
    rfl
  · rw [step_of_met hf ht hx hv (addrMet_xr ho), ackctl_zero]
    rfl

/-- Settles O28: a met wait sends the next byte or, after the last, STOP. -/
theorem transmitWaitStep : Obligations.TransmitWaitStep := by
  intro s hf ht hp
  have hw := WaitAfterStart.btf
  have hx := hw.xactStep_eq hp
  refine ⟨fun hv hi => ?_, fun hv hi => ?_, hw.step_of_abort hf ht hp, hw.step_of_unmet hf ht hp⟩
  · rw [step_of_met hf ht hx hv (btfMet_next hi)]
    rfl
  · rw [step_of_met hf ht hx hv (btfMet_last hi.not_lt)]
    rfl

/-- Settles O29: a met wait captures ENV's byte, and sends the next acknowledge setting or, after the last, STOP. -/
theorem receiveWaitStep : Obligations.ReceiveWaitStep := by
  intro s hf ht hp
  have hw := WaitAfterStart.rxne
  have hx := hw.xactStep_eq hp
  refine ⟨fun hv hi => ?_, fun hv hi => ?_, hw.step_of_abort hf ht hp, hw.step_of_unmet hf ht hp⟩
  · rw [step_of_met hf ht hx hv (rxneMet_next hi), ackctl_succ, capture_eq]
    rfl
  · rw [step_of_met hf ht hx hv (rxneMet_last hi), capture_eq]
    rfl

/-- Settles O30: ENV's first listed choice is the unmet sample, its second the draw. -/
theorem abortDrawsFreely : Obligations.AbortDrawsFreely := by
  intro s p f c d rest hf ht hp hc hm he
  obtain ⟨met, hw⟩ := exists_waitAfterStart hm
  have hv : s.sampled f = false := by simp [State.sampled, State.nextBit, State.nextChoice, he]
  have hd : (polledState f s).nextBit .draw = d := by
    cases d <;> simp [State.nextBit, State.nextChoice, State.afterSample, he]
  rw [hw.step_of_abort hf ht hp hv hc, hd]
  simp [State.afterSample, hv, he]

/-- Settles O46: what W_BUSY's success does after START is the address byte's meaning as an instruction. -/
theorem stepRunsAddressByte : Obligations.StepRunsAddressByte := by
  intro s hf ht hp hv
  have hstep : step s = thenTurns s.turns.tail (busyMet (sampledState .busy s)) := by
    rw [step_of_xactTurn hf ht, xactStep_of_wBusy hp, pollStep_met hv]
  exact ⟨fun ho => hstep.trans (congrArg _ (busyMet_xw ho)), fun ho => hstep.trans (congrArg _ (busyMet_xr ho))⟩

/-- Settles O32, by induction on the steps allowed. -/
theorem boundedCompletion : Obligations.BoundedCompletion := by
  refine ⟨fun s hs hf hp => xactRun_completes (inv_iff.1 hs).1 hf hp le_rfl, fun s hp hc => ?_⟩
  rw [budget_of_running (by simp [hp]), waitsLeft_wBusy hp, hc]
  simp only [BitVec.toNat_zero, Nat.sub_zero]
  ring

/-- Settles O58, from the invariant's clauses on the running transfer and on the valid frame. -/
theorem onlyWrittenBytesRead : Obligations.OnlyWrittenBytesRead := by
  intro s hs
  obtain ⟨B, -⟩ := inv_iff.1 hs
  refine ⟨fun hp => (B.transfer hp).values, fun hp ho j hj => ?_, fun hp => ?_, fun hp j hj => ?_, fun hv j hj => ?_,
    fun hv hl j hj => ⟨?_, rxFrame_getElem s hj⟩⟩
  · exact txByte_of_written ((B.transfer hp).payload (by simp [State.curOp, ho])) hj
  · have T := B.transfer (by simp [hp])
    exact ⟨(T.receiving hp).2, T.curN_le⟩
  · exact rxByte_of_written ((B.transfer (by simp [hp])).received hp) hj
  · exact rxByte_of_written (B.frame hv) hj
  · have hb := rxByte_of_written (B.frame hv) (j := j) (by simpa [hl] using hj)
    rw [rxFrame_getElem]
    exact (Vector.getElem?_eq_some_iff.1 hb).2

end Sys2Proof.Machine
end

section
/-! SUPPORT. DEC and CLR where nothing stops them (41_decoder.md R141 to R143, R150), and what a frame's bytes decide
of its reading (R140, R148). -/

namespace Sys2Proof.Machine

variable {s : State} {f g : Frame}

theorem decodeFrame_busy (m : DecodeNumerics) (h : f.busy = true) : decodeFrame m f = .busy :=
  if_pos h

theorem decodeFrame_pair (m : DecodeNumerics) (h : f.busy = false) :
    decodeFrame m f = .pair (tempX10 m f.tempRaw) (humX10 m f.humRaw) := by
  rw [decodeFrame, if_neg (by simp [h])]

theorem humRaw_congr (h1 : f[1] = g[1]) (h2 : f[2] = g[2]) (h3 : f[3] = g[3]) : f.humRaw = g.humRaw := by
  simp only [Frame.humRaw, h1, h2, h3]

theorem tempRaw_congr (h3 : f[3] = g[3]) (h4 : f[4] = g[4]) (h5 : f[5] = g[5]) : f.tempRaw = g.tempRaw := by
  simp only [Frame.tempRaw, h3, h4, h5]

/-- The six bytes of RXBUF are the frame DEC reads (R141). -/
theorem rxFrame_eq_of_rxbuf (h : ∀ (j : Nat) (hj : j < 6), s.rxbuf[j] = some f[j]) : s.rxFrame = f := by
  ext j hj : 1
  rw [rxFrame_getElem s hj]
  simp [State.rxByte, hj, h j hj]

theorem execClr_idle (hf : s.fault = none) (hp : s.phase = .idle) :
    execClr s = .next ({ s with tempX10 := 0#16, humX10 := 0#16 }.complete .none true) :=
  issue_idle hf hp

section Dec

variable (hf : s.fault = none) (hp : s.phase = .idle)

include hf hp

theorem execDec_noFrame (h : s.rxvalid = false ∨ s.rxlen ≠ 6#3) : execDec s = .next (s.complete .noFrame false) := by
  have hguard : s.rxvalid = false ∨ s.rxlen.toNat ≠ Config.frameLen := h.imp_right BitVec.toNat_ne.1
  rw [execDec, issue_idle hf hp, if_pos hguard]

theorem execDec_busy (hv : s.rxvalid = true) (hl : s.rxlen = 6#3) (hb : s.rxFrame.busy = true) :
    execDec s = .next (s.complete .sensorBusy false) := by
  simp [execDec, issue_idle hf hp, hv, hl, Config.frameLen, decodeFrame_busy _ hb]

theorem execDec_pair (hv : s.rxvalid = true) (hl : s.rxlen = 6#3) (hb : s.rxFrame.busy = false) :
    execDec s = .next ((s.commitPair (tempX10 s.numerics s.rxFrame.tempRaw)
      (humX10 s.numerics s.rxFrame.humRaw)).complete .none true) := by
  simp [execDec, issue_idle hf hp, hv, hl, Config.frameLen, decodeFrame_pair _ hb]

end Dec

end Sys2Proof.Machine
end

section
/-! SUPPORT. The conversions under EXACT as quotients (41_decoder.md R144 to R146). -/

namespace Sys2Proof.Machine

variable {m : Int}

theorem truncScaled_of_nonneg (h : 0 ≤ m) : truncScaled m = m / 2 ^ 20 := by
  rw [truncScaled, if_pos h, Nat.shiftRight_eq_div_pow]
  omega

theorem truncScaled_of_neg (h : m < 0) : truncScaled m = -(-m / 2 ^ 20) := by
  rw [truncScaled, if_neg h.not_ge, Nat.shiftRight_eq_div_pow]
  omega

/-- Truncation toward zero is the floor of a quotient that is not negative and the ceiling of a negative one. -/
theorem truncScaled_eq_trunc (m : Int) :
    truncScaled m = if 0 ≤ (m : ℚ) / 2 ^ 20 then ⌊(m : ℚ) / 2 ^ 20⌋ else ⌈(m : ℚ) / 2 ^ 20⌉ := by
  have hfloor : ⌊(m : ℚ) / 2 ^ 20⌋ = m / 2 ^ 20 := by exact_mod_cast Rat.floor_intCast_div_natCast m (2 ^ 20)
  have hceil : ⌈(m : ℚ) / 2 ^ 20⌉ = -(-m / 2 ^ 20) := by exact_mod_cast Rat.ceil_intCast_div_natCast m (2 ^ 20)
  have hsign : 0 ≤ (m : ℚ) / 2 ^ 20 ↔ 0 ≤ m := by rw [le_div_iff₀ (by positivity), zero_mul, Int.cast_nonneg_iff]
  simp only [hsign, hfloor, hceil]
  split
  · exact truncScaled_of_nonneg ‹_›
  · exact truncScaled_of_neg (by omega)

theorem tempX10_exact (r : BitVec 20) : tempX10 .exact r = truncScaled ((r.toNat : Int) * 2000 - 524288000) := rfl

theorem humX10_exact (r : BitVec 20) : humX10 .exact r = (r.toNat * 1000 / 2 ^ 20 : Nat) :=
  congrArg _ (Nat.shiftRight_eq_div_pow _ _)

/-- The raw values of one humidity are those whose scaled value has it as its quotient (R152). -/
theorem humX10_exact_eq_iff (r : BitVec 20) (h : Nat) :
    humX10 .exact r = h ↔ h * 2 ^ 20 ≤ r.toNat * 1000 ∧ r.toNat * 1000 < (h + 1) * 2 ^ 20 := by
  rw [humX10_exact, Nat.cast_inj, Nat.div_eq_iff (by decide)]
  omega

theorem encHum_lt {h : Nat} (hh : h ≤ 999) : encHum h < 2 ^ 20 := by
  unfold encHum
  omega

/-- enc rounds up by less than 1000 parts of 2^20 (R152). -/
theorem encHum_mul_bounds (h : Nat) : h * 2 ^ 20 ≤ encHum h * 1000 ∧ encHum h * 1000 < (h + 1) * 2 ^ 20 := by
  unfold encHum
  omega

end Sys2Proof.Machine
end

section
/-! The obligations of 41_decoder.md: DEC, CLR and the two conversions. -/

namespace Sys2Proof.Machine

/-- Settles O14: DEC's three outcomes leave what DEC reads, so the second DEC has the first one's outcome. -/
theorem decodeKeepsFrame : Obligations.DecodeKeepsFrame := by
  intro s hf hp
  by_cases hv : s.rxvalid = false ∨ s.rxlen ≠ 6#3
  · exact ⟨_, execDec_noFrame hf hp hv, rfl, rfl, rfl, execDec_noFrame hf rfl hv⟩
  · obtain ⟨hv, hl⟩ : s.rxvalid = true ∧ s.rxlen = 6#3 := by simpa using hv
    cases hb : s.rxFrame.busy
    · exact ⟨_, execDec_pair hf hp hv hl hb, rfl, rfl, rfl, execDec_pair hf rfl hv hl hb⟩
    · exact ⟨_, execDec_busy hf hp hv hl hb, rfl, rfl, rfl, execDec_busy hf rfl hv hl hb⟩

/-- Settles O37: the scaled value is not negative, so all three forms are the quotient of naturals. -/
theorem humidityExact : Obligations.HumidityExact := by
  refine ⟨fun r => ⟨?_, rfl, ?_, humX10_bounds .exact r⟩, by decide, by decide⟩
  · rw [humX10_exact, Int.natCast_ediv]
    exact (Int.tdiv_eq_ediv_of_nonneg (by positivity)).symm
  · rw [humX10_exact]
    exact_mod_cast (Rat.floor_natCast_div_natCast (r.toNat * 1000) (2 ^ 20)).symm

/-- Settles O38: the scaled difference over 2^20 is the quotient less 500. -/
theorem temperatureExact : Obligations.TemperatureExact := by
  refine ⟨fun r => ⟨?_, tempX10_bounds .exact r⟩, fun r hl hu => ?_, by decide, by decide, by decide, by decide⟩
  · have hq : ((r.toNat : ℚ) * 2000) / 2 ^ 20 - 500 = (((r.toNat : Int) * 2000 - 524288000 : Int) : ℚ) / 2 ^ 20 := by
      push_cast
      ring
    rw [hq]
    exact truncScaled_eq_trunc _
  · have hzero := truncScaled_bounds (m := (r.toNat : Int) * 2000 - 524288000) (a := 0) (b := 0) (by omega) (by omega)
    rw [tempX10_exact]
    omega

/-- Settles O39: the ranges of both settings lie within 16 bits. -/
theorem storeNeverWraps : Obligations.StoreNeverWraps := by
  refine ⟨fun m r => ?_, by decide, by decide, by decide, by decide⟩
  obtain ⟨hhl, hhu⟩ := humX10_bounds m r
  obtain ⟨htl, htu⟩ := tempX10_bounds m r
  exact ⟨hhl, hhu, htl, htu, toInt_store16 (by omega) (by omega), toInt_store16 (by omega) (by omega)⟩

/-- Settles O40: enc(h) is among the raw values that decode to h. -/
theorem humidityRoundTrip : Obligations.HumidityRoundTrip := by
  refine ⟨fun h hh => ⟨encHum_lt hh, ?_⟩, humX10_exact_eq_iff⟩
  rw [humX10_exact_eq_iff, BitVec.toNat_ofNat, Nat.mod_eq_of_lt (encHum_lt hh)]
  exact encHum_mul_bounds h

/-- Settles O7: CLR makes no check but the issue's. -/
theorem clrResult : Obligations.ClrResult :=
  fun _ hf hp => execClr_idle hf hp

/-- Settles O11: a frame that is not busy reads as its pair, and RXBUF's six bytes are the frame. -/
theorem decodeCommits : Obligations.DecodeCommits := by
  refine ⟨fun s hf hp hv hl hb => execDec_pair hf hp hv hl hb, fun s f hf hp hv hl hbytes hb => ?_⟩
  obtain rfl := rxFrame_eq_of_rxbuf hbytes
  exact execDec_pair hf hp hv hl hb

/-- Settles O12: a busy frame has no pair to commit. -/
theorem busyFrameFails : Obligations.BusyFrameFails :=
  fun _ hf hp hv hl hb => execDec_busy hf hp hv hl hb

/-- Settles O13: DEC checks for a frame first, and checks no INITD. -/
theorem noFrameFails : Obligations.NoFrameFails :=
  fun _ hf hp hv => execDec_noFrame hf hp hv

/-- Settles O41: of byte 0 the decoder reads the busy flag, and neither raw field reads any of it. -/
theorem statusBitsIgnored : Obligations.StatusBitsIgnored := by
  intro m f g h0 h1 h2 h3 h4 h5
  have hbusy : f.busy = g.busy := h0
  rw [decodeFrame, decodeFrame, hbusy, humRaw_congr h1 h2 h3, tempRaw_congr h3 h4 h5]

end Sys2Proof.Machine
end

section
/-! SUPPORT. The HOST's words by OP, and the illegal ones: those with a host OP that decode to no host word, and those
with an OP of neither kind (30_encoding.md R78, 45_host_sequences.md R161, R166). -/

namespace Sys2Proof.Machine

variable {w : Word} {i : Instr} {r : Reject} {s : State}

theorem hostWordKind_eq_command : hostWordKind w = .command ↔ 1 ≤ (opField w).toNat ∧ (opField w).toNat ≤ 5 := by
  unfold hostWordKind
  generalize opField w = o
  revert o
  decide

theorem hostWordKind_eq_hostWord :
    hostWordKind w = .hostWord ↔ (opField w).toNat = 8 ∨ (opField w).toNat = 9 ∨ (opField w).toNat = 10 := by
  unfold hostWordKind
  generalize opField w = o
  revert o
  decide

theorem hostWordKind_eq_illegal : hostWordKind w = .illegal ↔
    (opField w).toNat = 0 ∨ (opField w).toNat = 6 ∨ (opField w).toNat = 7 ∨ 11 ≤ (opField w).toNat := by
  unfold hostWordKind
  generalize opField w = o
  revert o
  decide

theorem hostWordKind_encode_of_command (hw : i.width = 32) (hc : i.cls = .command) :
    hostWordKind (encode i) = .command := by
  cases i with
  | xw1 | xw2 | xw3 => simp [encode, hostWordKind]
  | addrW | addrR => cases hw
  | delay | jf | retFalse | retTrue | retVoid => cases hc
  | _ => rfl

theorem hostWordKind_encode_of_hostWord (hc : i.cls = .hostWord) : hostWordKind (encode i) = .hostWord := by
  cases i with
  | delay | jf => simp [encode, hostWordKind]
  | retFalse | retTrue | retVoid => rfl
  | _ => cases hc

theorem hostWordKind_of_command (hd : decodeWord w = .ok i) (hc : i.cls = .command) : hostWordKind w = .command := by
  obtain ⟨rfl, -, hw⟩ := encode_of_decodeWord hd
  exact hostWordKind_encode_of_command hw hc

theorem hostWordKind_of_hostWord (hd : decodeWord w = .ok i) (hc : i.cls = .hostWord) :
    hostWordKind w = .hostWord := by
  obtain ⟨rfl, -, -⟩ := encode_of_decodeWord hd
  exact hostWordKind_encode_of_hostWord hc

theorem not_illegalHostWord_encode (hc : i.cls = .hostWord) : ¬ IllegalHostWord (encode i) := by
  cases i with
  | delay | jf => simp [encode]
  | retFalse | retTrue | retVoid => decide
  | _ => cases hc

theorem illegalHostWord_of_decodeRet_error (ho : opField w = 10#4) (h : decodeRet w = .error r) :
    IllegalHostWord w := by
  unfold decodeRet at h
  split at h
  case h_1 | h_2 | h_3 =>
    have hz := guardZero_eq_error h
    simp only [Bool.and_eq_false_iff, beq_eq_false_iff_ne] at hz
    exact .inr (hz.imp (fun hz => ⟨.inr (.inr ho), hz⟩) fun hz => ⟨ho, .inl hz⟩)
  case h_4 =>
    have hv : retV w = 3#2 := by
      simp only [imp_false] at *
      bv_omega
    exact .inr (.inr ⟨ho, .inr hv⟩)

theorem illegalHostWord_of_decodeWord_error (hk : hostWordKind w = .hostWord) (h : decodeWord w = .error r) :
    IllegalHostWord w := by
  have hop := hostWordKind_eq_hostWord.1 hk
  unfold decodeWord at h
  split at h
  case h_8 ho => exact illegalHostWord_of_decodeRet_error (BitVec.eq_of_toNat_eq ho) h
  case h_6 ho | h_7 ho =>
    have hz : hostZero w ≠ 0#12 := by simpa using guardZero_eq_error h
    exact .inr (.inl ⟨by bv_omega, hz⟩)
  case h_1 | h_2 | h_3 | h_4 | h_5 => omega
  case h_9 => obtain ho | ho | ho := hop <;> contradiction

/-- A word with a host OP is legal exactly when it decodes to a host word (R78). -/
theorem not_illegalHostWord_iff (hk : hostWordKind w = .hostWord) :
    ¬ IllegalHostWord w ↔ ∃ i, decodeWord w = .ok i ∧ i.cls = .hostWord := by
  constructor
  · intro hl
    match hd : decodeWord w with
    | .error _ => exact absurd (illegalHostWord_of_decodeWord_error hk hd) hl
    | .ok i => exact ⟨i, rfl, cls_of_hostWord hd hk⟩
  · rintro ⟨i, hd, hc⟩
    obtain ⟨rfl, -, -⟩ := encode_of_decodeWord hd
    exact not_illegalHostWord_encode hc

theorem hostWord_of_commandOp (hk : hostWordKind w = .command) : hostWord w s = thenWait (cmdWrite w s) := by
  simp [hostWord, hk]

theorem hostWord_of_decode (hd : decodeWord w = .ok i) (hc : i.cls = .hostWord) : hostWord w s = exec i s := by
  simp [hostWord, hostWordKind_of_hostWord hd hc, hd]

theorem hostWord_of_reservedOp (hk : hostWordKind w = .illegal) :
    hostWord w s = .next { s with fault := some .hIllegal } := by
  simp [hostWord, hk]

theorem hostWord_of_undecoded (hk : hostWordKind w = .hostWord) (hd : decodeWord w = .error r) :
    hostWord w s = .next { s with fault := some .hIllegal } := by
  simp [hostWord, hk, hd]

/-- An illegal word has a reserved OP, or a host OP and no meaning (R166). -/
theorem hostWord_of_illegal (hl : IllegalHostWord w) : hostWord w s = .next { s with fault := some .hIllegal } := by
  match hk : hostWordKind w with
  | .illegal => exact hostWord_of_reservedOp hk
  | .command =>
    have hop := hostWordKind_eq_command.1 hk
    obtain ho | ⟨ho, -⟩ | ⟨ho, -⟩ := hl <;> bv_omega
  | .hostWord =>
    match hd : decodeWord w with
    | .error r => exact hostWord_of_undecoded hk hd
    | .ok i => exact absurd hl ((not_illegalHostWord_iff hk).2 ⟨i, hd, cls_of_hostWord hd hk⟩)

end Sys2Proof.Machine
end

section
/-! SUPPORT. The HOST's turn in RUN (45_host_sequences.md R161, R162): the word at HPC is fetched and run, and what the
step then answers, by whether a fault was raised. -/

namespace Sys2Proof.Machine

variable {s : State} {w : Word} {i : Instr}

/-- A command's checks are those of the write to CMD, OVERLAP included, so both ways to it agree (R101). -/
theorem cmdWrite_eq_exec (hf : s.fault = none) (hd : decodeWord w = .ok i) (hc : i.cls = .command) :
    cmdWrite w s = exec i s := by
  by_cases hp : s.phase = .idle
  · exact cmdWrite_of_legal hf hp hd hc
  · obtain ⟨k, hk⟩ := exec_eq_issue hc
    rw [hk, cmdWrite_busy w hf hp, issue_busy hf hp]

theorem exists_cmdWrite_next (w : Word) (hf : s.fault = none) : ∃ t, cmdWrite w s = .next t := by
  refine exists_issue_next hf ?_
  split
  case h_1 i _ =>
    split
    · exact exists_exec_next i hf
    · exact ⟨_, rfl⟩
  case h_2 => exact ⟨_, rfl⟩

theorem thenWait_next {t : State} (h : t.fault = none) : thenWait (.next t) = .next { t with hmode := .wait } := by
  simp [thenWait, h]

theorem thenWait_fault {t : State} (h : t.fault ≠ none) : thenWait (.next t) = .next t := by simp [thenWait, h]

section Outcome

variable {rest : List Turn} {o : Result} (ho : ∃ t, o = .next t)

include ho

theorem thenTurns_outcome (h : step s = thenTurns rest o) : ∃ t, o = .next t ∧
    (t.fault = none → step s = .next { t with turns := rest }) ∧ (t.fault ≠ none → step s = .next t) := by
  obtain ⟨t, rfl⟩ := ho
  exact ⟨t, rfl, fun hn => h.trans (thenTurns_next rest hn), fun hn => h.trans (thenTurns_fault rest hn)⟩

/-- A fault's step leaves HMODE and the list of turns as they were (R205). -/
theorem thenWait_outcome (h : step s = thenTurns rest (thenWait o)) : ∃ t, o = .next t ∧
    (t.fault = none → step s = .next { t with hmode := .wait, turns := rest }) ∧
    (t.fault ≠ none → step s = .next t) := by
  obtain ⟨t, rfl⟩ := ho
  refine ⟨t, rfl, fun hn => ?_, fun hn => ?_⟩
  · rw [h, thenWait_next hn]
    exact thenTurns_next rest hn
  · rw [h, thenWait_fault hn, thenTurns_fault rest hn]

end Outcome

section Fetch

variable (hf : s.fault = none) (ht : s.HostTurn) (hm : s.hmode = .run)

include hf ht hm

theorem step_of_fetch : step s = thenTurns s.turns.tail (hostFetch s) := by
  rw [step_of_hostTurn hf ht (seqEnabled_of_run hm), seqStep_run hm]

theorem step_of_word (hw : s.wordAtHpc = some w) : step s = thenTurns s.turns.tail (hostWord w s) := by
  rw [step_of_fetch hf ht hm, hostFetch, hw]

theorem step_of_pastEnd (hw : s.wordAtHpc = none) : step s = .next { s with fault := some .hPcEnd } := by
  rw [step_of_fetch hf ht hm, hostFetch, hw]
  exact thenTurns_fault _ nofun

theorem step_of_illegalWord (hw : s.wordAtHpc = some w) (hl : IllegalHostWord w) :
    step s = .next { s with fault := some .hIllegal } := by
  rw [step_of_word hf ht hm hw, hostWord_of_illegal hl]
  exact thenTurns_fault _ nofun

/-- R162's step 1, for every word with a command's OP, a legal one or not. -/
theorem step_of_commandOp (hw : s.wordAtHpc = some w) (hk : hostWordKind w = .command) : ∃ t, cmdWrite w s = .next t ∧
    (t.fault = none → step s = .next { t with hmode := .wait, turns := s.turns.tail }) ∧
    (t.fault ≠ none → step s = .next t) := by
  refine thenWait_outcome (exists_cmdWrite_next w hf) ?_
  rw [step_of_word hf ht hm hw, hostWord_of_commandOp hk]

theorem step_of_hostInstr (hw : s.wordAtHpc = some w) (hd : decodeWord w = .ok i) (hc : i.cls = .hostWord) :
    ∃ t, exec i s = .next t ∧
      (t.fault = none → step s = .next { t with turns := s.turns.tail }) ∧ (t.fault ≠ none → step s = .next t) := by
  refine thenTurns_outcome (exists_exec_next i hf) ?_
  rw [step_of_word hf ht hm hw, hostWord_of_decode hd hc]

end Fetch

end Sys2Proof.Machine
end

section
/-! SUPPORT. When the HOST's sequence has no step (45_host_sequences.md R161, R162), who then moves, and that while FAULT
is none somebody does unless the state is final (R167). -/

namespace Sys2Proof.Machine

variable {s : State}

theorem seqEnabled_eq_false : s.seqEnabled = false ↔ s.hmode = .halt ∨ (s.hmode = .wait ∧ s.phase ≠ .idle) := by
  cases hm : s.hmode <;> simp [State.seqEnabled, State.idleBit, hm]

theorem seqEnabled_wait_iff (hm : s.hmode = .wait) : s.seqEnabled = true ↔ s.phase = .idle := by
  simp [State.seqEnabled, State.idleBit, hm]

theorem seqStep_wait (hm : s.hmode = .wait) (hp : s.phase = .idle) :
    seqStep s = .next { s.nextWord with hmode := .run } := by
  simp [seqStep, State.idleBit, hm, hp]

theorem seqStep_disabled (he : s.seqEnabled = false) : seqStep s = .refused .noStep := by
  obtain hm | ⟨hm, hp⟩ := seqEnabled_eq_false.1 he
  · simp [seqStep, hm]
  · simp [seqStep, State.idleBit, hm, hp]

theorem xactEnabled_iff : s.xactEnabled = true ↔ s.phase ≠ .idle := by simp [State.xactEnabled, State.idleBit]

theorem autoStep_running (hp : s.phase ≠ .idle) : autoStep s = xactStep s := if_pos (xactEnabled_iff.2 hp)

theorem autoStep_idle (hp : s.phase = .idle) : autoStep s = seqStep s :=
  if_neg fun hx => xactEnabled_iff.1 hx hp

/-- While FAULT is none the step goes by the listed turns (R62, R205). -/
theorem step_running (hf : s.fault = none) : step s = takeTurns s.turns s := whileRunning_running hf

/-- A turn of the HOST's sequence that has no step is passed over (R62). -/
theorem step_of_seqDisabled (hf : s.fault = none) (he : s.seqEnabled = false) (ht : s.turns = [] ∨ s.turns = [.seq]) :
    step s = thenTurns [] (autoStep s) := by
  rw [step_running hf]
  obtain ht | ht := ht <;> simp [ht, takeTurns, he]

theorem turns_of_hostTurn (ht : s.HostTurn) (hn : s.turns.tail = []) : s.turns = [] ∨ s.turns = [.seq] := by
  obtain ht | ⟨ht, -⟩ := ht
  · exact .inr (List.eq_cons_of_mem_head? ht ▸ hn ▸ rfl)
  · exact .inl ht

theorem exists_thenWait_next {o : Result} (ho : ∃ t, o = .next t) : ∃ t, thenWait o = .next t := by
  obtain ⟨t, rfl⟩ := ho
  by_cases h : t.fault = none
  · exact ⟨_, thenWait_next h⟩
  · exact ⟨_, thenWait_fault h⟩

theorem exists_thenTurns_next {o : Result} (rest : List Turn) (ho : ∃ t, o = .next t) :
    ∃ t, thenTurns rest o = .next t := by
  obtain ⟨t, rfl⟩ := ho
  by_cases h : t.fault = none
  · exact ⟨_, thenTurns_next rest h⟩
  · exact ⟨_, thenTurns_fault rest h⟩

theorem exists_hostWord_next (w : Word) (hf : s.fault = none) : ∃ t, hostWord w s = .next t := by
  unfold hostWord
  split
  case h_1 => exact exists_thenWait_next (exists_cmdWrite_next w hf)
  case h_2 =>
    split
    · exact exists_exec_next _ hf
    · exact ⟨_, rfl⟩
  case h_3 => exact ⟨_, rfl⟩

theorem exists_hostFetch_next (hf : s.fault = none) : ∃ t, hostFetch s = .next t := by
  unfold hostFetch
  split
  · exact ⟨_, rfl⟩
  · exact exists_hostWord_next _ hf

theorem exists_seqStep_next (hf : s.fault = none) (he : s.seqEnabled = true) : ∃ t, seqStep s = .next t := by
  cases hm : s.hmode with
  | run =>
    rw [seqStep_run hm]
    exact exists_hostFetch_next hf
  | wait => exact ⟨_, seqStep_wait hm ((seqEnabled_wait_iff hm).1 he)⟩
  | halt => simp [State.seqEnabled, hm] at he

theorem exists_regRead_next (r : BitVec 8) (hf : s.fault = none) : ∃ t, regRead r s = .next t := by
  rw [regRead, whileRunning_running hf]
  split <;> exact ⟨_, rfl⟩

theorem exists_regWrite_next (r : BitVec 8) (w : Word) (hf : s.fault = none) : ∃ t, regWrite r w s = .next t := by
  rw [regWrite, whileRunning_running hf]
  split
  · exact exists_cmdWrite_next w hf
  · exact ⟨_, rfl⟩

/-- With no turn listed somebody moves unless the state is final (R167). -/
theorem autoStep_progress (hf : s.fault = none) :
    (∃ t, autoStep s = .next t) ∨ (s.Final ∧ autoStep s = .refused .noStep) := by
  by_cases hp : s.phase = .idle
  · rw [autoStep_idle hp]
    cases he : s.seqEnabled with
    | true => exact .inl (exists_seqStep_next hf he)
    | false =>
      have hm : s.hmode = .halt := (seqEnabled_eq_false.1 he).resolve_right fun h => h.2 hp
      exact .inr ⟨⟨hm, hp, hf⟩, seqStep_disabled he⟩
  · rw [autoStep_running hp]
    exact .inl (exists_xactStep_next hf hp)

/-- A listed turn is taken, or passed over for the next one; the last resort is the move with none listed (R62). -/
theorem takeTurns_progress (hf : s.fault = none) (l : List Turn) :
    (∃ t, takeTurns l s = .next t) ∨ (s.Final ∧ takeTurns l s = .refused .noStep) := by
  induction l with
  | nil =>
    refine (autoStep_progress hf).imp (exists_thenTurns_next []) fun ⟨hfin, h⟩ => ⟨hfin, ?_⟩
    rw [takeTurns, h, thenTurns]
  | cons a l ih =>
    cases a with
    | xact =>
      rw [takeTurns]
      split
      case isTrue hx => exact .inl (exists_thenTurns_next l (exists_xactStep_next hf (xactEnabled_iff.1 hx)))
      case isFalse => exact ih
    | seq =>
      rw [takeTurns]
      split
      case isTrue he => exact .inl (exists_thenTurns_next l (exists_seqStep_next hf he))
      case isFalse => exact ih
    | read r => exact .inl (exists_thenTurns_next l (exists_regRead_next r hf))
    | write r w => exact .inl (exists_thenTurns_next l (exists_regWrite_next r w hf))

end Sys2Proof.Machine
end

section
/-! SUPPORT. JF by its target and the last command's result (45_host_sequences.md R164), and which of the HOST's own
fields a host word leaves alone (R163 to R165). -/

namespace Sys2Proof.Machine

variable {s t : State} {i : Instr} {j : BitVec 16}

theorem execJf_badTarget (hf : s.fault = none) (hj : s.prog.length ≤ j.toNat) :
    execJf j s = .next { s with fault := some .hBadTarget } := by
  simp [execJf, hf, hj]

section Target

variable (hf : s.fault = none) (hj : j.toNat < s.prog.length)

include hf hj

theorem execJf_noResult (hv : s.okv = false) : execJf j s = .next { s with fault := some .hNoResult } := by
  simp [execJf, hf, hj.not_ge, hv]

theorem execJf_failed (hv : s.okv = true) (ho : s.ok = false) : execJf j s = .next (s.jumpTo j) := by
  simp [execJf, hf, hj.not_ge, hv, ho]

theorem execJf_succeeded (hv : s.okv = true) (ho : s.ok = true) : execJf j s = .next s.nextWord := by
  simp [execJf, hf, hj.not_ge, hv, ho]

end Target

/-- DELAY and JF move HPC alone, RET writes HMODE and HRET alone. -/
theorem Effect.hostFields_of_hostWord (hc : i.cls = .hostWord) (h : Effect s i t) :
    (i ∈ [Instr.retFalse, .retTrue, .retVoid] ∧ t.hpc = s.hpc ∧ t.hpcPast = s.hpcPast) ∨
    (i ∉ [Instr.retFalse, .retTrue, .retVoid] ∧ t.hmode = s.hmode ∧ t.hret = s.hret) := by
  cases h with
  | delay | jump | fall => exact .inr ⟨by simp, rfl, rfl⟩
  | ret hi => exact .inl ⟨(cls_of_ret hi).1, rfl, rfl⟩
  | addr hi => cases hc.symm.trans (cls_of_addr hi)
  | write _ _ hk => cases hc.symm.trans (cls_of_payloadOf hk)
  | read _ _ hk => cases hc.symm.trans (cls_of_readLengthOf hk)
  | _ => cases hc

end Sys2Proof.Machine
end

section
/-! The obligations of 45_host_sequences.md: DELAY, JF and RET, the fetch by OP, the wait for completion, and that the
machine has a step until its state is final. -/

namespace Sys2Proof.Machine

/-- Settles O4: an illegal word is no command and decodes to no host word, so its fetch step raises the fault. -/
theorem illegalHostWords : Obligations.IllegalHostWords :=
  fun _ _ hf ht hm hpast hw hl => step_of_illegalWord hf ht hm (wordAtHpc_eq_some.2 ⟨hpast, hw⟩) hl

/-- Settles O24, from what the effect of a host word leaves alone; a fault leaves everything else. -/
theorem hostWordFrame : Obligations.HostWordFrame := by
  intro i s t hc h
  obtain ⟨-, ⟨c, rfl⟩ | he⟩ := exec_cases h
  · exact ⟨rfl, rfl, rfl, rfl, rfl, rfl, rfl, rfl, rfl, rfl, rfl, rfl, rfl, rfl, rfl, rfl, rfl, rfl, rfl, rfl, rfl, rfl,
      fun _ => rfl, fun _ => ⟨rfl, rfl⟩, fun _ => ⟨rfl, rfl⟩⟩
  · obtain ⟨hb, hh⟩ := he.sameBlock_of_hostWord hc
    obtain ⟨hturns, hread, hin, hcount⟩ := he.keeps_choices
    have hparams := he.sameParams
    have hhost := he.hostFields_of_hostWord hc
    refine ⟨hb.phase, hb.op, hb.n, hb.idx, hb.cnt, hb.txbuf, hb.rxbuf, hb.rxlen, hb.rxvalid, hb.initd, hb.okv, hb.ok,
      hb.tempX10, hb.humX10, hb.cause, hparams.prog, hturns, hread, hin, hcount, hparams.pollLimit, hparams.numerics,
      fun hi => ?_, fun hi => ?_, fun hi => ?_⟩
    · exact hh.resolve_right fun ⟨ms, hd, _⟩ => hi ms hd
    · exact (hhost.resolve_right fun h => h.1 hi).2
    · exact (hhost.resolve_left fun h => hi h.1).2

/-- Settles O47: the kinds of word are disjoint ranges of OP, and a HALTed HOST leaves a move to XACT alone. -/
theorem hostFetchByOp : Obligations.HostFetchByOp := by
  refine fun s hf ht => ⟨fun hm hend => step_of_pastEnd hf ht hm (wordAtHpc_eq_none.2 hend),
    fun w hm hpast hg => ?_, fun hm => ?_⟩
  · have hw : s.wordAtHpc = some w := wordAtHpc_eq_some.2 ⟨hpast, hg⟩
    refine ⟨fun h1 h5 => ?_, fun hop => ⟨fun hl => ?_, fun hl => ?_⟩, fun hop => ?_⟩
    · exact step_of_commandOp hf ht hm hw (hostWordKind_eq_command.2 ⟨h1, h5⟩)
    · exact step_of_illegalWord hf ht hm hw hl
    · obtain ⟨i, hd, hc⟩ := (not_illegalHostWord_iff (hostWordKind_eq_hostWord.2 hop)).1 hl
      obtain ⟨t, hstep⟩ := step_of_hostInstr hf ht hm hw hd hc
      exact ⟨i, t, hd, hc, hstep⟩
    · exact step_of_illegalWord hf ht hm hw (.inl (by bv_omega))
  · have he : s.seqEnabled = false := seqEnabled_eq_false.2 (.inl hm)
    refine ⟨he, seqStep_disabled he, fun hp hn => ?_⟩
    rw [step_of_seqDisabled hf he (turns_of_hostTurn ht hn), autoStep_idle hp, seqStep_disabled he, thenTurns]

/-- Settles O50: a turn whose agent has no step is passed over, and with none listed only a final state has no move. -/
theorem progressUntilFinal : Obligations.ProgressUntilFinal := by
  refine ⟨fun s hf => ?_, fun i s hf => exists_exec_next i hf⟩
  rw [step_running hf]
  exact takeTurns_progress hf s.turns

/-- Settles O15: DELAY makes no check but FAULT's. -/
theorem delayResult : Obligations.DelayResult :=
  fun _ ms hf => execDelay_running ms hf

/-- Settles O16: with a legal target and a result, OK alone decides the jump. -/
theorem jumpIfFailed : Obligations.JumpIfFailed :=
  fun _ _ hf hj hv => ⟨execJf_failed hf hj hv, execJf_succeeded hf hj hv⟩

/-- Settles O17: the target is checked before the result. -/
theorem jumpFaults : Obligations.JumpFaults :=
  fun _ _ hf => ⟨execJf_badTarget hf, execJf_noResult hf⟩

/-- Settles O18: RET makes no check but FAULT's. -/
theorem returnResult : Obligations.ReturnResult :=
  fun _ hf => ⟨returnWith_running _ hf, returnWith_running _ hf, returnWith_running _ hf⟩

/-- Settles O45: a command is run by the write of its word to CMD, a host word by the HOST itself. -/
theorem stepRunsHostWord : Obligations.StepRunsHostWord := by
  intro s w i hf ht hm hpast hg hd
  have hw : s.wordAtHpc = some w := wordAtHpc_eq_some.2 ⟨hpast, hg⟩
  refine ⟨fun hc => ?_, fun hc => step_of_hostInstr hf ht hm hw hd hc⟩
  rw [← cmdWrite_eq_exec hf hd hc]
  exact step_of_commandOp hf ht hm hw (hostWordKind_of_command hd hc)

/-- Settles O48: the waiting HOST's sequence has its step exactly when PHASE is IDLE, and XACT exactly when it is not. -/
theorem waitEndsWhenIdle : Obligations.WaitEndsWhenIdle := by
  intro s hf hm
  have hdis (hp : s.phase ≠ .idle) : s.seqEnabled = false := seqEnabled_eq_false.2 (.inr ⟨hm, hp⟩)
  refine ⟨fun ht hp => ?_, fun hp => ⟨hdis hp, seqStep_disabled (hdis hp)⟩, fun ht hp => ?_⟩
  · rw [step_of_hostTurn hf ht ((seqEnabled_wait_iff hm).2 hp), seqStep_wait hm hp]
    exact thenTurns_next _ hf
  · obtain ⟨t, hx⟩ := exists_xactStep_next hf hp
    refine ⟨t, hx, ?_⟩
    rw [step_of_seqDisabled hf (hdis hp) ht, autoStep_running hp, hx,
      thenTurns_next _ ((xactStep_cases hx).fault_eq.trans hf)]

end Sys2Proof.Machine
end

section
/-! SUPPORT. Who can end a running transaction, and what XACT's last step leaves when the transaction fails
(60_exceptions.md R201 to R203). -/

namespace Sys2Proof.Machine

variable {s t : State} {i : Instr}

/-- Every command is issued in PHASE IDLE; while a transaction runs it is a fault (R101). -/
theorem Effect.idle_of_command (hc : i.cls = .command) (h : Effect s i t) : s.phase = .idle := by
  cases h with
  | delay | jump | fall => cases hc
  | ret hi => cases hc.symm.trans (cls_of_ret hi).2
  | addr hi => cases hc.symm.trans (cls_of_addr hi)
  | init hp | clr hp | noFrame hp | sensorBusy hp | decode hp | write hp | read hp => exact hp

/-- The HOST's sequence ends no transaction: its commands need PHASE IDLE, and its own words leave PHASE alone. -/
theorem SeqEffect.phase_ne_idle (h : SeqEffect s t) (hp : s.phase ≠ .idle) : t.phase ≠ .idle := by
  cases h with
  | cmd _ _ _ hc he => exact absurd (he.idle_of_command hc) hp
  | host _ _ _ hc he => rwa [(he.sameBlock_of_hostWord hc).1.phase]
  | wait _ hidle => exact absurd hidle hp

/-- Only XACT's own step ends a running transaction (R134). -/
theorem StepEffect.xact_of_ends (h : StepEffect s t) (hp : s.phase ≠ .idle) (ht : t.phase = .idle) :
    ∃ u r, XactEffect s u ∧ t = { u with turns := r } := by
  cases h with
  | xact _ he => exact ⟨_, _, he, rfl⟩
  | fault | read => exact absurd ht hp
  | seq he => exact (he.phase_ne_idle hp ht).elim
  | cmd _ _ hc he => exact absurd (he.idle_of_command hc) hp

theorem XactEffect.initd_eq (h : XactEffect s t) : t.initd = s.initd := by
  cases h <;> simp

/-- The waits that an abort can end are those of R112, R115 and R122, each with its cause. -/
theorem cause_of_abort {p : Phase} {f : Flag} {c : Cause}
    (hm : (p, f, c) ∈ [(Phase.wAddr, Flag.addrAck, Cause.addrTimeout), (.wBtf, .btf, .btfTimeout),
      (.wRxne, .rxne, .rxneTimeout)]) :
    c ∈ [Cause.busBusyTimeout, .addrTimeout, .btfTimeout, .rxneTimeout] := by
  simp only [List.mem_cons, Prod.mk.injEq, List.not_mem_nil, or_false] at hm
  obtain ⟨-, -, rfl⟩ | ⟨-, -, rfl⟩ | ⟨-, -, rfl⟩ := hm <;> decide

/-- A transaction fails by one of the four timeouts, which captures no byte (R201). -/
theorem XactEffect.failure (h : XactEffect s t) (hp : s.phase ≠ .idle) (ht : t.phase = .idle) (ho : t.ok = false) :
    t.okv = true ∧ t.rxbuf = s.rxbuf ∧ t.rxvalid = s.rxvalid ∧
      t.cause ∈ [Cause.busBusyTimeout, .addrTimeout, .btfTimeout, .rxneTimeout] := by
  cases h with
  | busBusy => exact ⟨rfl, rfl, rfl, List.mem_cons_self⟩
  | abort hm => simpa using cause_of_abort hm
  | lastTx | lastRx => cases ho
  | stay | nextTx | nextRx => exact absurd ht hp
  | address | firstTx | firstAck => cases ht

end Sys2Proof.Machine
end

section
/-! SUPPORT. With FAULT set no instruction has a step (60_exceptions.md R205). -/

namespace Sys2Proof.Machine

variable {s : State} {c : FaultCode}

/-- Every instruction first looks at FAULT, a command in its issue and any other by itself. -/
theorem exec_eq_whileRunning (i : Instr) : ∃ k, ∀ s, exec i s = whileRunning k s := by
  cases i <;> exact ⟨_, fun _ => rfl⟩

theorem exec_stopped (i : Instr) (hf : s.fault = some c) : exec i s = .fault (.stopped c) := by
  obtain ⟨k, hk⟩ := exec_eq_whileRunning i
  rw [hk, whileRunning_stopped hf]

theorem step_stopped (hf : s.fault = some c) : step s = .fault (.stopped c) := whileRunning_stopped hf

end Sys2Proof.Machine
end

section
/-! SUPPORT. Meanings that do not read CAUSE (60_exceptions.md R202, 10_state.md R30): set to anything before them, it
makes no difference to their answer but in CAUSE. The property is closed under what meanings are built by. -/

namespace Sys2Proof.Machine

/-- CAUSE set to c, and nothing else. -/
def State.withCause (c : Cause) (s : State) : State := { s with cause := c }

@[simp] theorem State.withCause_fault (c : Cause) (s : State) : (s.withCause c).fault = s.fault := rfl
@[simp] theorem State.withCause_phase (c : Cause) (s : State) : (s.withCause c).phase = s.phase := rfl
@[simp] theorem State.withCause_curOp (c : Cause) (s : State) : (s.withCause c).curOp = s.curOp := rfl
@[simp] theorem State.withCause_numerics (c : Cause) (s : State) : (s.withCause c).numerics = s.numerics := rfl
@[simp] theorem State.withCause_rxFrame (c : Cause) (s : State) : (s.withCause c).rxFrame = s.rxFrame := rfl
@[simp] theorem State.withCause_wordAtHpc (c : Cause) (s : State) : (s.withCause c).wordAtHpc = s.wordAtHpc := rfl
/-- No register shows CAUSE (R22 to R26). -/
@[simp] theorem State.withCause_readReg (c : Cause) (r : BitVec 8) (s : State) :
    (s.withCause c).readReg r = s.readReg r := rfl
/-- The HOST observes nothing of CAUSE (R33). -/
@[simp] theorem State.withCause_observe (c : Cause) (s : State) : (s.withCause c).observe = s.observe := rfl

/-- An answer with CAUSE left out. -/
def hideCause (o : Result) : Result :=
  match o with
  | .next t => .next (t.withCause .none)
  | .fault r => .fault r
  | .refused r => .refused r

/-- What k answers, but for CAUSE, does not depend on CAUSE. -/
def IgnoresCause (k : State → Result) : Prop :=
  ∀ (s : State) (c : Cause), hideCause (k (s.withCause c)) = hideCause (k s)

variable {k k' met timeout : State → Result}

theorem IgnoresCause.whileRunning (hk : IgnoresCause k) : IgnoresCause (whileRunning k) := by
  intro s c
  cases hf : s.fault with
  | none => simpa [hf] using hk s c
  | some => simp [hf]

/-- A condition that is no matter of CAUSE may choose between two such meanings. -/
theorem IgnoresCause.ite {p : State → Prop} [DecidablePred p] (hp : ∀ s c, p (s.withCause c) ↔ p s)
    (hk : IgnoresCause k) (hk' : IgnoresCause k') : IgnoresCause fun s => if p s then k s else k' s := by
  intro s c
  simp only [hp]
  split
  · exact hk s c
  · exact hk' s c

theorem raise_ignoresCause (c : FaultCode) : IgnoresCause (raise c) := fun _ _ => rfl

theorem IgnoresCause.issue (hk : IgnoresCause k) : IgnoresCause (issue k) :=
  .whileRunning (.ite (fun _ _ => .rfl) hk (raise_ignoresCause _))

theorem hideCause_thenTurns (rest : List Turn) (o : Result) :
    hideCause (thenTurns rest o) = thenTurns rest (hideCause o) := by
  cases o with
  | next t =>
    by_cases h : t.fault = none
    · rw [thenTurns_next rest h]
      exact (thenTurns_next rest (t := t.withCause .none) h).symm
    · rw [thenTurns_fault rest h]
      exact (thenTurns_fault rest (t := t.withCause .none) h).symm
  | fault | refused => rfl

theorem hideCause_thenWait (o : Result) : hideCause (thenWait o) = thenWait (hideCause o) := by
  cases o with
  | next t =>
    by_cases h : t.fault = none
    · rw [thenWait_next h]
      exact (thenWait_next (t := t.withCause .none) h).symm
    · rw [thenWait_fault h]
      exact (thenWait_fault (t := t.withCause .none) h).symm
  | fault | refused => rfl

theorem IgnoresCause.thenTurns (rest : List Turn) (hk : IgnoresCause k) :
    IgnoresCause fun s => thenTurns rest (k s) := by
  intro s c
  rw [hideCause_thenTurns, hideCause_thenTurns, hk s c]

theorem IgnoresCause.thenWait (hk : IgnoresCause k) : IgnoresCause fun s => thenWait (k s) := by
  intro s c
  rw [hideCause_thenWait, hideCause_thenWait, hk s c]

/-- A wait samples and counts without CAUSE (R110). -/
theorem IgnoresCause.pollStep (f : Flag) (v : Bool) (hm : IgnoresCause met) (ht : IgnoresCause timeout) :
    IgnoresCause (pollStep f v met timeout) :=
  .ite (fun _ _ => .rfl) (fun s c => hm (sampledState f s) c)
    (.ite (fun _ _ => .rfl) (fun s c => ht (sampledState f s) c) fun _ _ => rfl)

end Sys2Proof.Machine
end

section
/-! SUPPORT. No instruction reads CAUSE, and no step of an agent (60_exceptions.md R202). -/

namespace Sys2Proof.Machine

theorem issueXw_ignoresCause (n : BitVec 3) (b0 b1 b2 : Byte) : IgnoresCause (issueXw n b0 b1 b2) :=
  .issue (.ite (fun _ _ => .rfl) (fun _ _ => rfl) (raise_ignoresCause _))

theorem issueXr_ignoresCause (n : BitVec 3) : IgnoresCause (issueXr n) :=
  .issue (.ite (fun _ _ => .rfl) (fun _ _ => rfl) (raise_ignoresCause _))

theorem execInit_ignoresCause : IgnoresCause execInit :=
  .issue (.ite (fun _ _ => .rfl) (raise_ignoresCause _) fun _ _ => rfl)

theorem execClr_ignoresCause : IgnoresCause execClr := .issue fun _ _ => rfl

theorem execDec_ignoresCause : IgnoresCause execDec := by
  refine .issue (.ite (fun _ _ => .rfl) (fun _ _ => rfl) fun s c => ?_)
  simp only [State.withCause_numerics, State.withCause_rxFrame]
  cases decodeFrame s.numerics s.rxFrame <;> rfl

theorem execDelay_ignoresCause (ms : BitVec 16) : IgnoresCause (execDelay ms) := .whileRunning fun _ _ => rfl

theorem execJf_ignoresCause (j : BitVec 16) : IgnoresCause (execJf j) :=
  .whileRunning (.ite (fun _ _ => .rfl) (raise_ignoresCause _) (.ite (fun _ _ => .rfl) (raise_ignoresCause _)
    (.ite (fun _ _ => .rfl) (fun _ _ => rfl) fun _ _ => rfl)))

theorem returnWith_ignoresCause (v : RetVal) : IgnoresCause (returnWith v) := .whileRunning fun _ _ => rfl

theorem driveAddress_ignoresCause (rw : Bool) : IgnoresCause (driveAddress rw) := .whileRunning fun _ _ => rfl

theorem exec_ignoresCause (i : Instr) : IgnoresCause (exec i) := by
  cases i with
  | init => exact execInit_ignoresCause
  | clr => exact execClr_ignoresCause
  | dec => exact execDec_ignoresCause
  | xw1 | xw2 | xw3 | sensorReset | sensorInit | sensorMeasure => exact issueXw_ignoresCause _ _ _ _
  | xr1 | xr2 | xr3 | xr4 | xr5 | xr6 | readFrame => exact issueXr_ignoresCause _
  | delay ms => exact execDelay_ignoresCause ms
  | jf j => exact execJf_ignoresCause j
  | retFalse | retTrue | retVoid => exact returnWith_ignoresCause _
  | addrW | addrR => exact driveAddress_ignoresCause _

theorem busyMet_ignoresCause : IgnoresCause busyMet := by
  intro s c
  simp only [busyMet, State.withCause_curOp]
  cases s.curOp with
  | xw => exact driveAddress_ignoresCause false (s.emit .start) c
  | xr => exact driveAddress_ignoresCause true (s.emit .start) c

theorem addrMet_ignoresCause : IgnoresCause addrMet := by
  intro s c
  simp only [addrMet, State.withCause_curOp]
  cases s.curOp <;> rfl

theorem btfMet_ignoresCause : IgnoresCause btfMet := .ite (fun _ _ => .rfl) (fun _ _ => rfl) fun _ _ => rfl

theorem afterCapture_ignoresCause : IgnoresCause afterCapture := .ite (fun _ _ => .rfl) (fun _ _ => rfl) fun _ _ => rfl

theorem rxneMet_ignoresCause : IgnoresCause rxneMet := fun s c => afterCapture_ignoresCause s.capture c

/-- An abort overwrites CAUSE, and its draw does not read it (R130). -/
theorem abort_ignoresCause (d : Cause) : IgnoresCause fun s => .next (s.abort d) := by
  intro s c
  simp only [abort_eq]
  rfl

theorem xactStep_ignoresCause : IgnoresCause xactStep := by
  intro s c
  simp only [xactStep, State.withCause_phase]
  cases s.phase with
  | idle => rfl
  | wBusy => exact IgnoresCause.pollStep _ _ busyMet_ignoresCause (timeout := busyTimeout) (fun _ _ => rfl) s c
  | wAddr => exact IgnoresCause.pollStep _ _ addrMet_ignoresCause (abort_ignoresCause _) s c
  | wBtf => exact IgnoresCause.pollStep _ _ btfMet_ignoresCause (abort_ignoresCause _) s c
  | wRxne => exact IgnoresCause.pollStep _ _ rxneMet_ignoresCause (abort_ignoresCause _) s c

theorem cmdWrite_ignoresCause (w : Word) : IgnoresCause (cmdWrite w) := by
  refine .issue ?_
  cases decodeWord w with
  | error => exact raise_ignoresCause _
  | ok i => exact .ite (fun _ _ => .rfl) (exec_ignoresCause i) (raise_ignoresCause _)

theorem regRead_ignoresCause (r : BitVec 8) : IgnoresCause (regRead r) := by
  refine .whileRunning fun s c => ?_
  simp only [State.withCause_readReg]
  cases s.readReg r <;> rfl

theorem regWrite_ignoresCause (r : BitVec 8) (w : Word) : IgnoresCause (regWrite r w) :=
  .whileRunning (.ite (fun _ _ => .rfl) (cmdWrite_ignoresCause w) (raise_ignoresCause _))

theorem hostWord_ignoresCause (w : Word) : IgnoresCause (hostWord w) := by
  unfold hostWord
  cases hostWordKind w with
  | command => exact (cmdWrite_ignoresCause w).thenWait
  | illegal => exact raise_ignoresCause _
  | hostWord =>
    cases decodeWord w with
    | ok i => exact exec_ignoresCause i
    | error => exact raise_ignoresCause _

theorem hostFetch_ignoresCause : IgnoresCause hostFetch := by
  intro s c
  simp only [hostFetch, State.withCause_wordAtHpc]
  cases s.wordAtHpc with
  | none => rfl
  | some w => exact hostWord_ignoresCause w s c

theorem seqStep_ignoresCause : IgnoresCause seqStep := by
  intro s c
  cases he : s.seqEnabled with
  | false => rw [seqStep_disabled he, seqStep_disabled (s := s.withCause c) he]
  | true =>
    cases hm : s.hmode with
    | run =>
      rw [seqStep_run hm, seqStep_run (s := s.withCause c) hm]
      exact hostFetch_ignoresCause s c
    | wait =>
      have hp := (seqEnabled_wait_iff hm).1 he
      rw [seqStep_wait hm hp, seqStep_wait (s := s.withCause c) hm hp]
      rfl
    | halt => simp [State.seqEnabled, hm] at he

theorem autoStep_ignoresCause : IgnoresCause autoStep :=
  .ite (fun _ _ => .rfl) xactStep_ignoresCause seqStep_ignoresCause

/-- Whether an agent has a step is no matter of CAUSE, so the same turns are passed over (R62). -/
theorem takeTurns_ignoresCause (l : List Turn) : IgnoresCause (takeTurns l) := by
  induction l with
  | nil => exact autoStep_ignoresCause.thenTurns []
  | cons a l ih =>
    cases a with
    | xact => exact .ite (fun _ _ => .rfl) (xactStep_ignoresCause.thenTurns l) ih
    | seq => exact .ite (fun _ _ => .rfl) (seqStep_ignoresCause.thenTurns l) ih
    | read r => exact (regRead_ignoresCause r).thenTurns l
    | write r w => exact (regWrite_ignoresCause r w).thenTurns l

theorem step_ignoresCause : IgnoresCause step := .whileRunning fun s c => takeTurns_ignoresCause s.turns s c

end Sys2Proof.Machine
end

section
/-! The obligations of 60_exceptions.md: XACT's steps raise no fault, what a failing transaction leaves, that a fault
stops the machine and writes nothing else, and that CAUSE is ghost state. -/

namespace Sys2Proof.Machine

/-- Settles O31: a running XACT has its step whatever ENV answers, and no effect of XACT writes FAULT. -/
theorem transactorNeverFaults : Obligations.TransactorNeverFaults :=
  ⟨fun _ _ h => (xactStep_cases h).fault_eq, fun _ hf hp => exists_xactStep_next hf hp⟩

/-- Settles O35: the step that ends a transaction is XACT's, and the step that fails it is a timeout. -/
theorem failedTransactionFrame : Obligations.FailedTransactionFrame := by
  intro s t h hp ht ho
  obtain ⟨hf, he⟩ := step_effect h
  obtain ⟨u, r, hx, rfl⟩ := he.xact_of_ends hp ht
  obtain ⟨hokv, hrxbuf, hrxvalid, hcause⟩ := hx.failure hp ht ho
  obtain ⟨htemp, hhum⟩ := hx.handle_eq
  exact ⟨hokv, hx.initd_eq, hx.sameTransfer.txbuf, hrxbuf, hrxvalid, htemp, hhum, hx.fault_eq.trans hf, hcause⟩

/-- Settles O49: raising a fault is an effect of its own, and every other effect leaves FAULT as it was. -/
theorem faultsStopPrecisely : Obligations.FaultsStopPrecisely := by
  refine ⟨fun s t c h hc => ?_, fun i s t c h hc => ?_,
    fun s c hf => ⟨step_stopped hf, fun i => exec_stopped i hf, fun ⟨_, _, hn⟩ => ?_⟩⟩
  · obtain ⟨hf, he⟩ := step_effect h
    obtain ⟨d, rfl⟩ | hn := he.fault_cases hf
    · obtain rfl : d = c := Option.some.inj hc
      exact ⟨hf, rfl⟩
    · cases hn.symm.trans hc
  · obtain ⟨hf, ⟨d, rfl⟩ | he⟩ := exec_cases h
    · obtain rfl : d = c := Option.some.inj hc
      rfl
    · cases hf.symm.trans (he.fault_eq.symm.trans hc)
  · cases hn.symm.trans hf

/-- Settles O55: a step ignores CAUSE, and so does what the HOST observes of its next state. -/
theorem causeIsHidden : Obligations.CauseIsHidden := by
  intro s c
  have h : hideCause (step { s with cause := c }) = hideCause (step s) := step_ignoresCause s c
  generalize step s = o, step { s with cause := c } = o' at h
  cases o with
  | next t =>
    cases o' with
    | next u =>
      have htu : u.withCause .none = t.withCause .none := Host.Outcome.next.inj h
      exact ⟨htu.symm, by rw [← t.withCause_observe .none, ← htu, State.withCause_observe]⟩
    | fault | refused => cases h
  | fault a =>
    cases o' with
    | fault b => exact (Host.Outcome.fault.inj h).symm
    | next | refused => cases h
  | refused a =>
    cases o' with
    | refused b => exact (Host.Outcome.refused.inj h).symm
    | next | fault => cases h

end Sys2Proof.Machine
end

section
/-! The obligation of 70_reset_and_hazards.md: the machine right after reset. -/

namespace Sys2Proof.Machine

theorem reset_txbuf_unwritten {i : Nat} (hi : i < 3) : State.reset.txbuf[i]? = some none := by
  have hbuf : State.reset.txbuf = Vector.replicate 3 none := rfl
  simp [hbuf, hi]

theorem reset_rxbuf_unwritten {i : Nat} (hi : i < 6) : State.reset.rxbuf[i]? = some none := by
  have hbuf : State.reset.rxbuf = Vector.replicate 6 none := rfl
  simp [hbuf, hi]

/-- The registers as the HOST reads them at reset: of STATUS only IDLE is set, and both handle values are 0 (R231). -/
theorem reset_readReg : State.reset.readReg regStatus = some 0x00000001#32 ∧
    State.reset.readReg regTemp = some 0x00000000#32 ∧ State.reset.readReg regHum = some 0x00000000#32 :=
  ⟨rfl, rfl, rfl⟩

/-- The HOST may launch right after reset (R236). -/
theorem reset_cleanLaunch : State.reset.CleanLaunch :=
  ⟨rfl, rfl, rfl, rfl, rfl, rfl, rfl, rfl, rfl, rfl, rfl, rfl, rfl⟩

/-- Settles O59: the fields have their values by the definition of the reset state; the buffers, the registers and
CleanLaunch are the lemmas above. -/
theorem resetValues : Obligations.ResetValues := by
  obtain ⟨hstatus, htemp, hhum⟩ := reset_readReg
  exact ⟨rfl, rfl, rfl, rfl, rfl, rfl, rfl, rfl, rfl, rfl, rfl, rfl, rfl, rfl, rfl, rfl, rfl,
    fun _ => reset_txbuf_unwritten, fun _ => reset_rxbuf_unwritten, hstatus, htemp, hhum, reset_cleanLaunch⟩

end Sys2Proof.Machine
end
